-- ==== Sys2Proof/Word.lean ====
section
/-!
DEFINITION. The word types of the unit (00_scope.md R8: a byte is 8 bits, every quantity is unsigned).
-/

namespace Sys2Proof

/-- A byte of a stream or a register (00_scope.md R8). -/
abbrev Byte := BitVec 8

/-- A 16-bit unsigned quantity: lengths, response fields, image sides (40_codec.md R122). -/
abbrev Word16 := BitVec 16

/-- A 32-bit unsigned quantity: header length, configuration values, image byte counts. -/
abbrev Word32 := BitVec 32

end Sys2Proof
end

