-- ==== Sys2Proof/Config.lean ====
section
/-!
DEFINITION. What the spec fixes (00_scope.md R6), what it leaves to an implementation (R7), and the free values.
-/

namespace Sys2Proof

/-! ### Constants the spec fixes (00_scope.md R6) -/

/-- `CMD_HDR_LEN`: bytes before the payload of a command frame. -/
def cmdHdrLen : Nat := 4

/-- `RSP_HDR_LEN`: bytes of a response header. -/
def rspHdrLen : Nat := 6

/-- `MAX_PAYLOAD`: the largest command payload in bytes. -/
def maxPayload : Nat := 28

/-- `EXEC_SUBHDR_LEN`: the sub-header of an ExecutionResult. -/
def execSubhdrLen : Nat := 4

/-- `IMG_DIM_LEN`: the image dimensions. -/
def imgDimLen : Nat := 4

/-- Bytes of the largest fixed shape (`VERSION_LEN`), the size of `RB` (10_state.md R29). -/
def versionLen : Nat := 19

/-! ### Open parameters (00_scope.md R7) -/

/-- The open parameters of 00_scope.md R7. The spec asks for "a named argument of the model, never a silent constant":
they are a field of the machine's state that no step writes, so a statement over every state is a statement over every
choice of them (log entry 2). -/
structure Params where
  /-- `SYNC` -/
  sync : Byte
  /-- `OP_GET_VERSION` -/
  opGetVersion : Byte
  /-- `OP_SET_CAMERA_ANGLE` -/
  opSetCameraAngle : Byte
  /-- `OP_GET_CAMERA_ANGLE` -/
  opGetCameraAngle : Byte
  /-- `OP_EXECUTE` -/
  opExecute : Byte
  /-- `OP_SET_THRESHOLD` -/
  opSetThreshold : Byte
  /-- `OP_GET_THRESHOLD` -/
  opGetThreshold : Byte
  /-- `OP_SET_DETECTION_SIZE` -/
  opSetDetectionSize : Byte
  /-- `OP_GET_DETECTION_SIZE` -/
  opGetDetectionSize : Byte
  /-- `OP_SET_FACE_ANGLE` -/
  opSetFaceAngle : Byte
  /-- `OP_GET_FACE_ANGLE` -/
  opGetFaceAngle : Byte
  /-- `BODY_ITEM_BYTES` -/
  bodyItemBytes : Nat
  /-- `HAND_ITEM_BYTES` -/
  handItemBytes : Nat
  /-- `CHUNK_MAX` -/
  chunkMax : Nat
  /-- `IMG_RETRY_RESET_ON_DATA` -/
  imgRetryResetOnData : Bool
  deriving DecidableEq, Repr

/-- The ten opcodes in the order of 30_encoding.md R97. -/
def Params.opcodes (p : Params) : List Byte :=
  [p.opGetVersion, p.opSetCameraAngle, p.opGetCameraAngle, p.opExecute, p.opSetThreshold, p.opGetThreshold,
   p.opSetDetectionSize, p.opGetDetectionSize, p.opSetFaceAngle, p.opGetFaceAngle]

/-- The constraints of 00_scope.md R7 and 44_execute_image.md R223: opcodes pairwise distinct, `CHUNK_MAX` from 1 to 65535. -/
abbrev Params.WellFormed (p : Params) : Prop :=
  p.opcodes.Nodup ∧ 1 ≤ p.chunkMax ∧ p.chunkMax ≤ 65535

/-- `P_REF`, the reference instantiation of 00_scope.md R7.
PRESUMED (log entry 2): the spec marks these values as general knowledge; unsafe for a statement that leans on them. -/
def Params.ref : Params where
  sync := 0xFE
  opGetVersion := 0x00
  opSetCameraAngle := 0x01
  opGetCameraAngle := 0x02
  opExecute := 0x04
  opSetThreshold := 0x05
  opGetThreshold := 0x06
  opSetDetectionSize := 0x07
  opGetDetectionSize := 0x08
  opSetFaceAngle := 0x09
  opGetFaceAngle := 0x0A
  bodyItemBytes := 8
  handItemBytes := 8
  chunkMax := 64
  imgRetryResetOnData := false

/-! ### Free values -/

/-- A value the spec leaves unspecified ("any value", 93_implementation_defined.md U1; log entry 7): `w` bits, for the
`slot`-th unspecified register of the `draw`-th occasion. It has no body, so nothing can be proved of it. -/
opaque Config.freeBits (w draw slot : Nat) : BitVec w

end Sys2Proof
end

