-- ==== Sys2Proof/Machine/Codec.lean ====
section
/-!
DEFINITION. The frame codec of 40_codec.md: pure functions, no state, no I/O.
-/

namespace Sys2Proof

/-- `bytes_to_int(lsb, msb) = lsb + (msb << 8)` (40_codec.md R122). -/
def b2i (lsb msb : Byte) : Word16 := lsb.setWidth 16 + (msb.setWidth 16 <<< 8)

/-- `int_into_lsb_msb(v) = (v & 0xFF, v >> 8)` (R123). Outside 0 to 65535 it is not defined; a 16-bit operand cannot be. -/
def intIntoLsbMsb (v : Word16) : Byte × Byte := ((v &&& 0xFF).setWidth 8, (v >>> 8).setWidth 8)

/-- `le32(b0, b1, b2, b3)` (R124). -/
def le32 (b0 b1 b2 b3 : Byte) : Word32 :=
  b0.setWidth 32 + (b1.setWidth 32 <<< 8) + (b2.setWidth 32 <<< 16) + (b3.setWidth 32 <<< 24)

/-- `mul16(w, h)`: the exact product in 32 bits (R125). -/
def mul16 (w h : Word16) : Word32 := w.setWidth 32 * h.setWidth 32

/-- The frame of 30_encoding.md R90 with a length field of its own. -/
def frameBytes (sync opcode : Byte) (len : Word16) (payload : List Byte) : List Byte :=
  [sync, opcode, (intIntoLsbMsb len).1, (intIntoLsbMsb len).2] ++ payload

/-- `encode(opcode, payload)` of 40_codec.md R126: `none` is `Err(PayloadTooLarge)`. -/
def encodeFrame (sync opcode : Byte) (payload : List Byte) : Option (List Byte) :=
  if payload.length > maxPayload then none
  else some (frameBytes sync opcode (BitVec.ofNat 16 payload.length) payload)

/-- The document's ResponseHeader (10_state.md R28). -/
structure ResponseHeader where
  syncByte : Byte
  status : Byte
  payloadLength : Word32
  deriving DecidableEq, Repr

/-- `decode_header(b)` (40_codec.md R127), defined on exactly 6 bytes. -/
def decodeHeader (b : List Byte) : Option ResponseHeader :=
  match b with
  | [b0, b1, b2, b3, b4, b5] => some ⟨b0, b1, le32 b2 b3 b4 b5⟩
  | _ => none

/-- The result of `validate` (R128). -/
inductive HeaderCheck where
  | valid
  | badSync
  | deviceError (status : Byte)
  deriving DecidableEq, Repr

/-- `validate(header)` (R128): sync first, then status; the length is not examined. -/
def validate (sync : Byte) (h : ResponseHeader) : HeaderCheck :=
  if h.syncByte ≠ sync then .badSync
  else if h.status ≠ 0 then .deviceError h.status
  else .valid

/-- `encode_header(S, st, L)` (R129), the inverse of `decode_header`. -/
def encodeHeader (sync status : Byte) (length : Word32) : List Byte :=
  [sync, status, length.setWidth 8, (length >>> 8).setWidth 8, (length >>> 16).setWidth 8,
   (length >>> 24).setWidth 8]

end Sys2Proof
end

