-- ==== Sys2Proof/Syntax.lean ====
section
/-!
DEFINITION. The rows of spec/opcode_table.json as one inductive, the formats of their encodings, and an encoded word.
-/

namespace Sys2Proof

/-- The ten commands (30_encoding.md R97), for what they share. -/
inductive CommandKind where
  | getVersion | setCameraAngle | getCameraAngle | execute | setThreshold | getThreshold
  | setDetectionSize | getDetectionSize | setFaceAngle | getFaceAngle
  deriving DecidableEq, Repr

/-- One constructor per row of spec/opcode_table.json. A command carries what its presentation on the `CMD` channel
carries (10_state.md R22): `cmd_len` and the payload bytes the port holds; `EXECUTE` also `cmd_imgreq`. -/
inductive Instr where
  /-- `GET_VERSION`, 43_decoders.md R196 -/
  | getVersion (len : Word16) (payload : List Byte)
  /-- `SET_CAMERA_ANGLE`, R197 -/
  | setCameraAngle (len : Word16) (payload : List Byte)
  /-- `GET_CAMERA_ANGLE`, R198 -/
  | getCameraAngle (len : Word16) (payload : List Byte)
  /-- `EXECUTE`, 44_execute_image.md R215 -/
  | execute (len : Word16) (payload : List Byte) (imgreq : Bool)
  /-- `SET_THRESHOLD`, 43_decoders.md R199 -/
  | setThreshold (len : Word16) (payload : List Byte)
  /-- `GET_THRESHOLD`, R200 -/
  | getThreshold (len : Word16) (payload : List Byte)
  /-- `SET_DETECTION_SIZE`, R201 -/
  | setDetectionSize (len : Word16) (payload : List Byte)
  /-- `GET_DETECTION_SIZE`, R202 -/
  | getDetectionSize (len : Word16) (payload : List Byte)
  /-- `SET_FACE_ANGLE`, R203 -/
  | setFaceAngle (len : Word16) (payload : List Byte)
  /-- `GET_FACE_ANGLE`, R204 -/
  | getFaceAngle (len : Word16) (payload : List Byte)
  /-- `RESPONSE_HEADER`, 30_encoding.md R91, 42_executor.md R164: any sync and status byte, any length -/
  | responseHeader (sync status : Byte) (length : Word32)
  /-- `DEC_NONE`, 43_decoders.md R195 -/
  | decNone
  /-- `DEC_VERSION`, R190 -/
  | decVersion
  /-- `DEC_CAMERA_ANGLE`, R191 -/
  | decCameraAngle
  /-- `DEC_THRESHOLD`, R192 -/
  | decThreshold
  /-- `DEC_DETSIZE`, R193 -/
  | decDetsize
  /-- `DEC_FACE_ANGLE`, R194 -/
  | decFaceAngle
  /-- `DEC_EXEC`, 44_execute_image.md R215 -/
  | decExec
  /-- `DEC_RESERVED`, 30_encoding.md R110 -/
  | decReserved
  /-- `STEP_IDLE`, the accept step, 42_executor.md R158 -/
  | stepIdle
  /-- `STEP_SEND`, R161 -/
  | stepSend
  /-- `STEP_WAIT`, 41_poll.md R142 -/
  | stepWait
  /-- `STEP_HEADER`, 42_executor.md R164 -/
  | stepHeader
  /-- `STEP_FIXED`, 43_decoders.md R187 -/
  | stepFixed
  /-- `STEP_EX_SUB`, 44_execute_image.md R216 -/
  | stepExSub
  /-- `STEP_EX_BODY`, R218 -/
  | stepExBody
  /-- `STEP_EX_HAND`, R219 -/
  | stepExHand
  /-- `STEP_IMG_DIM`, R222 -/
  | stepImgDim
  /-- `STEP_IMG_STREAM`, R224 -/
  | stepImgStream
  /-- `CFG_WRITE_MAX_WAIT_POLLS`, 41_poll.md R147 -/
  | cfgWriteMaxWaitPolls (wdata : Word32)
  /-- `CFG_WRITE_POLL_INTERVAL_MS`, R147 -/
  | cfgWritePollIntervalMs (wdata : Word32)
  /-- `CFG_WRITE_IMG_RETRY_CEIL`, R147 -/
  | cfgWriteImgRetryCeil (wdata : Word32)
  /-- `CFG_SEL_RESERVED`, 10_state.md R24 -/
  | cfgSelReserved (wdata : Word32)
  deriving DecidableEq, Repr

/-- The command instruction of a kind. `imgreq` is an operand of `EXECUTE` only (10_state.md R22). -/
def CommandKind.instr (k : CommandKind) (len : Word16) (payload : List Byte) (imgreq : Bool) : Instr :=
  match k with
  | .getVersion => .getVersion len payload
  | .setCameraAngle => .setCameraAngle len payload
  | .getCameraAngle => .getCameraAngle len payload
  | .execute => .execute len payload imgreq
  | .setThreshold => .setThreshold len payload
  | .getThreshold => .getThreshold len payload
  | .setDetectionSize => .setDetectionSize len payload
  | .getDetectionSize => .getDetectionSize len payload
  | .setFaceAngle => .setFaceAngle len payload
  | .getFaceAngle => .getFaceAngle len payload

/-- All ten commands, in the order of 30_encoding.md R97. -/
def CommandKind.all : List CommandKind :=
  [.getVersion, .setCameraAngle, .getCameraAngle, .execute, .setThreshold, .getThreshold,
   .setDetectionSize, .getDetectionSize, .setFaceAngle, .getFaceAngle]

/-- The formats of spec/opcode_table.json (30_encoding.md R93). Each is a code space of its own. -/
inductive Format where
  /-- `CMD_FRAME`, R90 -/
  | cmdFrame
  /-- `RESP_HEADER`, R91 -/
  | respHeader
  /-- `CMD_DEC`, R105 -/
  | cmdDec
  /-- `PHASE`, 10_state.md R40 -/
  | phase
  /-- `CFG_SEL`, 10_state.md R24 -/
  | cfgSel
  deriving DecidableEq, Repr

/-- An encoded word as an agent presents it: the bytes of the row's encoding, first byte on the wire first (a code of
fewer than 8 bits in the low bits of one byte), and the signals that go beside it on its channel and are no part of the
encoding: `cmd_imgreq` in bit 0 beside a command frame (10_state.md R22), `cfg_wdata` beside a selector (R24), else 0.
DESIGN CHOICE, safe (log entry 20): the spec gives these signals no place in the encoding. -/
structure PortWord where
  format : Format
  bytes : List Byte
  side : Word32
  deriving DecidableEq, Repr

/-- Why a word encodes no row. -/
inductive DecodeError where
  /-- fewer bytes than the format has -/
  | truncated
  /-- more bytes than the format has -/
  | trailingBytes
  /-- a command frame whose byte 0 is not `SYNC` (30_encoding.md R90) -/
  | badSync
  /-- a command frame whose opcode is none of the ten (R97); such a command is presented raw (R106) -/
  | unknownOpcode (opcode : Byte)
  /-- a phase code from 10 to 15 (10_state.md R40: reserved, never entered) -/
  | reservedPhase
  /-- a bit set above the row's width -/
  | highBits
  /-- a side signal that the word's channel does not carry -/
  | sideSignals
  deriving DecidableEq, Repr

end Sys2Proof
end

