-- ==== Sys2Proof/WellFormed.lean ====
section
/-!
DEFINITION. Well-formed instructions: what the channels can carry.
-/

namespace Sys2Proof

/-- The payload bytes a command port can hold for a given `cmd_len`: all of them up to 28, and 28 of them above
(10_state.md R22; 92_eei_decisions.md D7: a length above 28 can be presented, its bytes cannot). -/
abbrev PayloadFits (len : Word16) (payload : List Byte) : Prop :=
  payload.length = min len.toNat maxPayload

/-- A well-formed instruction: a command's payload is the bytes its length announces, as far as the port holds them. -/
abbrev Instr.WellFormed (i : Instr) : Prop :=
  match i with
  | .getVersion len payload | .setCameraAngle len payload | .getCameraAngle len payload
  | .setThreshold len payload | .getThreshold len payload
  | .setDetectionSize len payload | .getDetectionSize len payload
  | .setFaceAngle len payload | .getFaceAngle len payload => PayloadFits len payload
  | .execute len payload _ => PayloadFits len payload
  | .responseHeader _ _ _ => True
  | .decNone | .decVersion | .decCameraAngle | .decThreshold | .decDetsize | .decFaceAngle
  | .decExec | .decReserved => True
  | .stepIdle | .stepSend | .stepWait | .stepHeader | .stepFixed | .stepExSub | .stepExBody
  | .stepExHand | .stepImgDim | .stepImgStream => True
  | .cfgWriteMaxWaitPolls _ | .cfgWritePollIntervalMs _ | .cfgWriteImgRetryCeil _
  | .cfgSelReserved _ => True

end Sys2Proof
end

