-- ==== Sys2Proof/Decode.lean ====
section
/-!
DEFINITION. Decoding a presented word to a row of the opcode table, total and rejecting by name, and the encoder.
-/

namespace Sys2Proof

/-- The opcode parameter of a command (30_encoding.md R97). -/
def opcodeOf (p : Params) (k : CommandKind) : Byte :=
  match k with
  | .getVersion => p.opGetVersion
  | .setCameraAngle => p.opSetCameraAngle
  | .getCameraAngle => p.opGetCameraAngle
  | .execute => p.opExecute
  | .setThreshold => p.opSetThreshold
  | .getThreshold => p.opGetThreshold
  | .setDetectionSize => p.opSetDetectionSize
  | .getDetectionSize => p.opGetDetectionSize
  | .setFaceAngle => p.opSetFaceAngle
  | .getFaceAngle => p.opGetFaceAngle

/-- The command with an opcode, if any of the ten has it. -/
def commandOfOpcode (p : Params) (opcode : Byte) : Option CommandKind :=
  CommandKind.all.find? fun k => opcodeOf p k == opcode

/-- `cmd_imgreq` beside a command frame: a bit for `EXECUTE`, and low for every other command, which the host presents
with `cmd_imgreq = 0` (30_encoding.md R113). -/
def imgreqOfSide (k : CommandKind) (side : Word32) : Option Bool :=
  if side = 0 then some false
  else if side = 1 ∧ k = .execute then some true
  else none

/-- The operands of a command after its opcode is known: the length field and the payload bytes (30_encoding.md R90). -/
def decodeOperands (k : CommandKind) (len : Word16) (payload : List Byte) (side : Word32) :
    Except DecodeError Instr :=
  if payload.length < min len.toNat maxPayload then .error .truncated
  else if min len.toNat maxPayload < payload.length then .error .trailingBytes
  else match imgreqOfSide k side with
    | none => .error .sideSignals
    | some imgreq => .ok (k.instr len payload imgreq)

/-- A command frame (30_encoding.md R90, R97). -/
def decodeCommand (p : Params) (bytes : List Byte) (side : Word32) : Except DecodeError Instr :=
  match bytes with
  | sync :: opcode :: lsb :: msb :: payload =>
    if sync ≠ p.sync then .error .badSync
    else match commandOfOpcode p opcode with
      | none => .error (.unknownOpcode opcode)
      | some k => decodeOperands k (b2i lsb msb) payload side
  | _ => .error .truncated

/-- A response header (30_encoding.md R91): every six bytes are one. -/
def decodeResponse (bytes : List Byte) : Except DecodeError Instr :=
  match decodeHeader bytes with
  | some h => .ok (.responseHeader h.syncByte h.status h.payloadLength)
  | none => if bytes.length < rspHdrLen then .error .truncated else .error .trailingBytes

/-- A decoder code (30_encoding.md R105). -/
def decodeDecoder (code : Nat) : Except DecodeError Instr :=
  match code with
  | 0 => .ok .decNone
  | 1 => .ok .decVersion
  | 2 => .ok .decCameraAngle
  | 3 => .ok .decThreshold
  | 4 => .ok .decDetsize
  | 5 => .ok .decFaceAngle
  | 6 => .ok .decExec
  | 7 => .ok .decReserved
  | _ => .error .highBits

/-- A phase code (10_state.md R40). -/
def decodePhase (code : Nat) : Except DecodeError Instr :=
  match code with
  | 0 => .ok .stepIdle
  | 1 => .ok .stepSend
  | 2 => .ok .stepWait
  | 3 => .ok .stepHeader
  | 4 => .ok .stepFixed
  | 5 => .ok .stepExSub
  | 6 => .ok .stepExBody
  | 7 => .ok .stepExHand
  | 8 => .ok .stepImgDim
  | 9 => .ok .stepImgStream
  | n => if n < 16 then .error .reservedPhase else .error .highBits

/-- A configuration selector and its write data (10_state.md R24). -/
def decodeSelector (code : Nat) (wdata : Word32) : Except DecodeError Instr :=
  match code with
  | 0 => .ok (.cfgWriteMaxWaitPolls wdata)
  | 1 => .ok (.cfgWritePollIntervalMs wdata)
  | 2 => .ok (.cfgWriteImgRetryCeil wdata)
  | 3 => .ok (.cfgSelReserved wdata)
  | _ => .error .highBits

/-- The code of a one-byte word. -/
def oneByte (bytes : List Byte) (k : Nat → Except DecodeError Instr) : Except DecodeError Instr :=
  match bytes with
  | [] => .error .truncated
  | [b] => k b.toNat
  | _ => .error .trailingBytes

/-- A word whose channel carries no side signal. -/
def noSide (side : Word32) (k : Except DecodeError Instr) : Except DecodeError Instr :=
  if side = 0 then k else .error .sideSignals

/-- The decoder: a word of a format to its row of spec/opcode_table.json (30_encoding.md R93), or the reason there is
none. -/
def decode (p : Params) (w : PortWord) : Except DecodeError Instr :=
  match w.format with
  | .cmdFrame => decodeCommand p w.bytes w.side
  | .respHeader => noSide w.side (decodeResponse w.bytes)
  | .cmdDec => noSide w.side (oneByte w.bytes decodeDecoder)
  | .phase => noSide w.side (oneByte w.bytes decodePhase)
  | .cfgSel => oneByte w.bytes fun code => decodeSelector code w.side

/-! ### The encoder -/

/-- A command's frame and its side signal. -/
def encodeCommand (p : Params) (k : CommandKind) (len : Word16) (payload : List Byte) (imgreq : Bool) : PortWord :=
  ⟨.cmdFrame, frameBytes p.sync (opcodeOf p k) len payload, if imgreq then 1 else 0⟩

/-- The word of an instruction, from the spec's encoding tables (30_encoding.md R90, R91, R97, R105; 10_state.md R24,
R40). -/
def encode (p : Params) (i : Instr) : PortWord :=
  match i with
  | .getVersion len payload => encodeCommand p .getVersion len payload false
  | .setCameraAngle len payload => encodeCommand p .setCameraAngle len payload false
  | .getCameraAngle len payload => encodeCommand p .getCameraAngle len payload false
  | .execute len payload imgreq => encodeCommand p .execute len payload imgreq
  | .setThreshold len payload => encodeCommand p .setThreshold len payload false
  | .getThreshold len payload => encodeCommand p .getThreshold len payload false
  | .setDetectionSize len payload => encodeCommand p .setDetectionSize len payload false
  | .getDetectionSize len payload => encodeCommand p .getDetectionSize len payload false
  | .setFaceAngle len payload => encodeCommand p .setFaceAngle len payload false
  | .getFaceAngle len payload => encodeCommand p .getFaceAngle len payload false
  | .responseHeader sync status length => ⟨.respHeader, encodeHeader sync status length, 0⟩
  | .decNone => ⟨.cmdDec, [0], 0⟩
  | .decVersion => ⟨.cmdDec, [1], 0⟩
  | .decCameraAngle => ⟨.cmdDec, [2], 0⟩
  | .decThreshold => ⟨.cmdDec, [3], 0⟩
  | .decDetsize => ⟨.cmdDec, [4], 0⟩
  | .decFaceAngle => ⟨.cmdDec, [5], 0⟩
  | .decExec => ⟨.cmdDec, [6], 0⟩
  | .decReserved => ⟨.cmdDec, [7], 0⟩
  | .stepIdle => ⟨.phase, [0], 0⟩
  | .stepSend => ⟨.phase, [1], 0⟩
  | .stepWait => ⟨.phase, [2], 0⟩
  | .stepHeader => ⟨.phase, [3], 0⟩
  | .stepFixed => ⟨.phase, [4], 0⟩
  | .stepExSub => ⟨.phase, [5], 0⟩
  | .stepExBody => ⟨.phase, [6], 0⟩
  | .stepExHand => ⟨.phase, [7], 0⟩
  | .stepImgDim => ⟨.phase, [8], 0⟩
  | .stepImgStream => ⟨.phase, [9], 0⟩
  | .cfgWriteMaxWaitPolls wdata => ⟨.cfgSel, [0], wdata⟩
  | .cfgWritePollIntervalMs wdata => ⟨.cfgSel, [1], wdata⟩
  | .cfgWriteImgRetryCeil wdata => ⟨.cfgSel, [2], wdata⟩
  | .cfgSelReserved wdata => ⟨.cfgSel, [3], wdata⟩

/-! ### Words as the opcode table numbers them -/

/-- The `n` low bytes of a number, most significant first: the table writes byte 0 leftmost (30_encoding.md R93). -/
def bigEndianBytes (n w : Nat) : List Byte :=
  match n with
  | 0 => []
  | n + 1 => BitVec.ofNat 8 (w >>> (8 * n)) :: bigEndianBytes n w

/-- The word the table numbers `w`, by the row's width. A command frame is followed by as many zero payload bytes as its
length field announces and the port holds; `cmd_imgreq` and `cfg_wdata` are 0.
DESIGN CHOICE (log entry 3): rounded up to whole bytes the one-byte formats cannot be told apart, and an 8-bit word is
read as a phase code. -/
def tableWord (nbits w : Nat) : Option PortWord :=
  match nbits with
  | 32 =>
    let bytes := bigEndianBytes 4 w
    let len := b2i (bytes.getD 2 0) (bytes.getD 3 0)
    some ⟨.cmdFrame, bytes ++ List.replicate (min len.toNat maxPayload) 0, 0⟩
  | 48 => some ⟨.respHeader, bigEndianBytes 6 w, 0⟩
  | 8 | 4 => some ⟨.phase, bigEndianBytes 1 w, 0⟩
  | 3 => some ⟨.cmdDec, bigEndianBytes 1 w, 0⟩
  | 2 => some ⟨.cfgSel, bigEndianBytes 1 w, 0⟩
  | _ => none

/-- The row a word of the table decodes to. The table's `match` values are computed with P_REF (30_encoding.md R93). -/
def decodeTableWord (nbits w : Nat) : Option Instr :=
  match tableWord nbits w with
  | none => none
  | some word =>
    match decode Params.ref word with
    | .ok i => some i
    | .error _ => none

end Sys2Proof
end

