-- ==== Sys2Proof/Machine/State.lean ====
section
/-!
DEFINITION. The state of the unit and of the environment it meets (10_state.md), as plain data.
-/

namespace Sys2Proof.Machine

/-! ### Names the registers hold -/

/-- `PHASE` (10_state.md R40): what plays the part of a program counter. Codes 10 to 15 are reserved and never entered. -/
inductive Phase where
  | idle | send | wait | header | fixed | exSub | exBody | exHand | imgDim | imgStream
  deriving DecidableEq, Repr

/-- `C_DEC` (30_encoding.md R105). Code 7 is reserved and never latched (R110). -/
inductive Decoder where
  | none | version | cameraAngle | threshold | detsize | faceAngle | exec
  deriving DecidableEq, Repr

/-- `RES_CODE` (60_exceptions.md R246). Codes 8 to 15 are never produced. -/
inductive ResCode where
  | ok | payloadTooLarge | write | timeout | shortHeader | shortRead | badSync | device
  deriving DecidableEq, Repr

/-! ### Register groups -/

/-- The command registers (10_state.md R27). -/
structure CommandRegs where
  /-- `C_OPCODE` -/
  opcode : Byte
  /-- `C_LEN` -/
  len : Word16
  /-- `C_PAYLOAD[0..27]` -/
  payload : Vector Byte 28
  /-- `C_DEC` -/
  dec : Decoder
  /-- `C_IMGREQ` -/
  imgreq : Bool
  deriving DecidableEq, Repr

/-- The header registers (R28). -/
structure HeaderRegs where
  /-- `H_SYNC` -/
  sync : Byte
  /-- `H_STATUS` -/
  status : Byte
  /-- `H_LEN` -/
  len : Word32
  deriving DecidableEq, Repr

/-- The result data registers (R29). -/
structure DataRegs where
  /-- `RB[0..18]` -/
  rb : Vector Byte 19
  /-- `X_BODY_COUNT` -/
  bodyCount : Byte
  /-- `X_HAND_COUNT` -/
  handCount : Byte
  /-- `X_FACE_COUNT` -/
  faceCount : Byte
  /-- `IMG_W` -/
  imgW : Word16
  /-- `IMG_H` -/
  imgH : Word16
  /-- `IMG_REM`, the drain's remaining-byte counter too (R44) -/
  imgRem : Word32
  /-- `BUDGET_LEFT` -/
  budgetLeft : Word32
  deriving DecidableEq, Repr

/-- The result registers and flags (R35 to R38). -/
structure ResultRegs where
  /-- `RES_VALID` -/
  valid : Bool
  /-- `RES_CODE` -/
  code : ResCode
  /-- `RES_DATA_VALID` -/
  dataValid : Bool
  /-- `RES_DEV_STATUS` -/
  devStatus : Byte
  /-- `RES_IMG_PRESENT` -/
  imgPresent : Bool
  /-- `RES_IMG_INCOMPLETE` -/
  imgIncomplete : Bool
  /-- `RES_OVER_BUDGET` -/
  overBudget : Bool
  deriving DecidableEq, Repr

/-- The configuration registers (R30 to R32) and, for each, whether the host has written it since reset (R52,
70_reset_and_hazards.md R283). What a register not written holds is `heldConfig`'s (log entry 6). -/
structure ConfigRegs where
  /-- `CFG_MAX_WAIT_POLLS` -/
  maxWaitPolls : Word32
  /-- `CFG_POLL_INTERVAL_MS` -/
  pollIntervalMs : Word32
  /-- `CFG_IMG_RETRY_CEIL` -/
  imgRetryCeil : Word32
  maxWaitPollsWritten : Bool
  pollIntervalMsWritten : Bool
  imgRetryCeilWritten : Bool
  /-- model's own: the draw that gave the registers not written their free values (log entry 6) -/
  draw : Nat
  deriving DecidableEq, Repr

/-- The shadow registers (R33). -/
structure ShadowRegs where
  /-- `S_MAX_WAIT_POLLS` -/
  maxWaitPolls : Word32
  /-- `S_POLL_INTERVAL_MS` -/
  pollIntervalMs : Word32
  /-- `S_IMG_RETRY_CEIL` -/
  imgRetryCeil : Word32
  deriving DecidableEq, Repr

/-! ### Channels and streams -/

/-- One transfer of the `CMD` channel (10_state.md R22): any opcode, any length, any decoder code. -/
structure Command where
  /-- `cmd_opcode` -/
  opcode : Byte
  /-- `cmd_len` -/
  len : Word16
  /-- `cmd_payload` -/
  payload : Vector Byte 28
  /-- `cmd_dec` -/
  dec : BitVec 3
  /-- `cmd_imgreq` -/
  imgreq : Bool
  deriving DecidableEq, Repr

/-- What the transport will do at one request of the unit (10_state.md R25): the bytes that arrive before it answers
(20_memory.md R66), and the count it answers. A count is clipped to what the transport's contract allows (R63 to R65;
93_implementation_defined.md U7, U8), so every answer is a legal one (log entry 9). -/
structure Answer where
  arrived : List Byte
  count : Nat
  deriving DecidableEq, Repr

/-- The transport (10_state.md R47, R48). -/
structure LinkState where
  /-- the inbound stream the transport holds, front first -/
  inbound : List Byte
  /-- the bytes the transport took from the unit, oldest first -/
  outbound : List Byte
  /-- the answers to come, next first -/
  answers : List Answer
  deriving DecidableEq, Repr

/-- The yield channel (R26) and the scheduler's returns to come. -/
structure YieldState where
  /-- `yld_req`: a yield is outstanding -/
  req : Bool
  /-- `yld_ms`; with no yield outstanding the interval last driven, and 0 after reset until one is driven, a DESIGN CHOICE
  (log entry 29) -/
  ms : Word32
  acks : Nat
  deriving DecidableEq, Repr

/-- One external request with its answer, as 95_test_vectors.md prints a trace. -/
inductive Event where
  /-- `TWrite(frame) -> count` -/
  | wrote (frame : List Byte) (count : Nat)
  /-- `TAvail() -> ready` -/
  | polled (ready : Nat)
  /-- `TRead(n) -> bytes` -/
  | read (n : Nat) (bytes : List Byte)
  /-- `SinkWrite(bytes)` -/
  | sank (bytes : List Byte)
  /-- `Yield(ms)` -/
  | yielded (ms : Word32)
  deriving DecidableEq, Repr

/-- A move of an agent (10_state.md R20). The machine takes one at a time (log entry 1). -/
inductive Move where
  /-- the unit takes one step of its sequencer -/
  | unit
  /-- an agent presents an encoded word -/
  | word (w : PortWord)
  /-- the host raises `cmd_valid` with any command (R22; the `RAW` line of 30_encoding.md R113) -/
  | offer (c : Command)
  /-- the host reads a configuration register (41_poll.md R148) -/
  | cfgRead (sel : BitVec 2)
  /-- the transport will answer one more request -/
  | answer (a : Answer)
  /-- the scheduler returns once (`yld_ack`) -/
  | ack
  /-- the sink is ready for more byte beats (`snk_ready`, R26) -/
  | sinkReady (beats : Nat)
  /-- the device sends bytes (20_memory.md R66) -/
  | deliver (bytes : List Byte)
  /-- the host empties the transport itself, in IDLE (R82) -/
  | flush
  /-- `rst` (10_state.md R21) -/
  | rst
  deriving DecidableEq, Repr

/-! ### The state -/

/-- Everything the spec gives the machine, and the environment it meets. -/
structure State where
  phase : Phase
  /-- `TICK` (R41) -/
  tick : Word32
  /-- `RETRY` (R42) -/
  retry : BitVec 33
  /-- `ITEMS` (R43) -/
  items : Byte
  cmd : CommandRegs
  hdr : HeaderRegs
  data : DataRegs
  res : ResultRegs
  cfg : ConfigRegs
  shadow : ShadowRegs
  /-- `cfg_sel` as the host last drove it (R24); 0 before it has driven any, a DESIGN CHOICE (log entry 17) -/
  cfgSel : BitVec 2
  /-- commands the host holds `cmd_valid` for, the head on the port (R22, 42_executor.md R157) -/
  offers : List Command
  link : LinkState
  /-- bytes handed to the sink, oldest first (R47) -/
  sink : List Byte
  /-- byte beats the sink will still take: `snk_ready` to come (R26; log entry 12) -/
  sinkReady : Nat
  yld : YieldState
  /-- the open parameters (00_scope.md R7), written by no step -/
  params : Params
  /-- model's own: the moves to come, next first; with none left the unit moves -/
  agenda : List Move
  /-- model's own: the external requests of the current or last command, oldest first -/
  trace : List Event
  /-- model's own: how many times a free value has been drawn (log entry 7) -/
  freeIdx : Nat
  deriving DecidableEq, Repr

/-- Why the machine stops. -/
inductive Fault where
  /-- Raised by `step` when a presented word encodes no row of the opcode table (log entry 25). Safe: the spec gives
  such a word no effect; a command with another opcode is presented raw (30_encoding.md R106). -/
  | undecodable (e : DecodeError)
  deriving DecidableEq, Repr

/-- Why the model gives no meaning. -/
inductive Refusal where
  /-- Raised by `exec` for an instruction without a meaning. Safe. No instruction of this model raises it. -/
  | notModelled (mnemonic : String)
  /-- Raised by the accept step for `cmd_dec = 7` and by `DEC_RESERVED` (30_encoding.md R110: "A model refuses a command
  with `cmd_dec = 7`"). Safe. -/
  | reservedDecoder
  /-- Raised by the accept step for a command while a configuration register it needs was never written
  (70_reset_and_hazards.md R283: "in a model a command accepted while any of the three is unwritten is **refused**").
  Safe. -/
  | configUnwritten
  deriving DecidableEq, Repr

/-- The registers after `rst` and an environment that has done nothing, for given parameters. `PHASE`, `RES_VALID` and
the "not written" marks are the spec's (10_state.md R52); every other register, unspecified there, is 0
(DESIGN CHOICE, log entry 5, unsafe). `yld_ms`, which R52 does not list, is 0 too (DESIGN CHOICE, log entry 29), and so is
`cfg_sel`, an input for which the spec gives no value before the host drives it: `cfg_rdata` then shows
`CFG_MAX_WAIT_POLLS` (DESIGN CHOICE, log entry 17). -/
def State.resetWith (p : Params) : State where
  phase := .idle
  tick := 0
  retry := 0
  items := 0
  cmd := ⟨0, 0, Vector.replicate 28 0, .none, false⟩
  hdr := ⟨0, 0, 0⟩
  data := ⟨Vector.replicate 19 0, 0, 0, 0, 0, 0, 0, 0⟩
  res := ⟨false, .ok, false, 0, false, false, false⟩
  cfg := ⟨0, 0, 0, false, false, false, 0⟩
  shadow := ⟨0, 0, 0⟩
  cfgSel := 0
  offers := []
  link := ⟨[], [], []⟩
  sink := []
  sinkReady := 0
  yld := ⟨false, 0, 0⟩
  params := p
  agenda := []
  trace := []
  freeIdx := 1

/-- The machine right after reset, with P_REF for the open parameters (PRESUMED, log entry 2). -/
def State.reset : State := State.resetWith Params.ref

end Sys2Proof.Machine
end

