-- ==== Sys2Proof/Machine/Operands.lean ====
section
/-!
DEFINITION. Operand forms: the command port, the frame, the shapes, the chunk size, and the codes of the named values.
-/

namespace Sys2Proof.Machine

/-! ### Codes -/

/-- The code of a phase (10_state.md R40). -/
def phaseCode (p : Phase) : BitVec 4 :=
  match p with
  | .idle => 0 | .send => 1 | .wait => 2 | .header => 3 | .fixed => 4
  | .exSub => 5 | .exBody => 6 | .exHand => 7 | .imgDim => 8 | .imgStream => 9

/-- The phase of a code; codes 10 to 15 have none. -/
def phaseOfCode (c : Nat) : Option Phase :=
  match c with
  | 0 => some .idle | 1 => some .send | 2 => some .wait | 3 => some .header | 4 => some .fixed
  | 5 => some .exSub | 6 => some .exBody | 7 => some .exHand | 8 => some .imgDim | 9 => some .imgStream
  | _ => none

/-- The code of a decoder (30_encoding.md R105). -/
def decoderCode (d : Decoder) : BitVec 3 :=
  match d with
  | .none => 0 | .version => 1 | .cameraAngle => 2 | .threshold => 3 | .detsize => 4
  | .faceAngle => 5 | .exec => 6

/-- The decoder of a code; code 7 is reserved (30_encoding.md R110). -/
def decoderOfCode (c : BitVec 3) : Option Decoder :=
  match c.toNat with
  | 0 => some .none | 1 => some .version | 2 => some .cameraAngle | 3 => some .threshold
  | 4 => some .detsize | 5 => some .faceAngle | 6 => some .exec
  | _ => none

/-- The number of a result code (60_exceptions.md R246). -/
def resCodeNumber (c : ResCode) : BitVec 4 :=
  match c with
  | .ok => 0 | .payloadTooLarge => 1 | .write => 2 | .timeout => 3 | .shortHeader => 4
  | .shortRead => 5 | .badSync => 6 | .device => 7

/-! ### The command port -/

/-- Payload bytes on the 28-byte port (10_state.md R22); the bytes above them are low and are not looked at. -/
def portPayload (bytes : List Byte) : Vector Byte 28 := Vector.ofFn fun i => bytes.getD i.val 0

/-- The decoder the host binds to a command (30_encoding.md R97). -/
def boundDecoder (k : CommandKind) : Decoder :=
  match k with
  | .getVersion => .version
  | .setCameraAngle => .none
  | .getCameraAngle => .cameraAngle
  | .execute => .exec
  | .setThreshold => .none
  | .getThreshold => .threshold
  | .setDetectionSize => .none
  | .getDetectionSize => .detsize
  | .setFaceAngle => .none
  | .getFaceAngle => .faceAngle

/-- A command of the opcode table on the `CMD` channel (30_encoding.md R97, R113). -/
def commandOf (p : Params) (k : CommandKind) (len : Word16) (payload : List Byte) (imgreq : Bool) : Command :=
  ⟨opcodeOf p k, len, portPayload payload, decoderCode (boundDecoder k), imgreq⟩

/-! ### Holding registers wider than what is written into them -/

/-- A register file of `n` bytes after its first `len` entries took `bytes`: the entries above are unspecified
(43_decoders.md R187 for `RB`; 10_state.md R27 and 93_implementation_defined.md U20 for `C_PAYLOAD`), so they hold free
values (log entry 7). -/
def latchBytes (n draw len : Nat) (bytes : List Byte) : Vector Byte n :=
  Vector.ofFn fun i => if i.val < len then bytes.getD i.val 0 else Config.freeBits 8 draw i.val

/-- Free values in every result data register (10_state.md R36: "any value"; log entry 7). -/
def freeData (draw : Nat) : DataRegs where
  rb := latchBytes 19 draw 0 []
  bodyCount := Config.freeBits 8 draw 19
  handCount := Config.freeBits 8 draw 20
  faceCount := Config.freeBits 8 draw 21
  imgW := Config.freeBits 16 draw 22
  imgH := Config.freeBits 16 draw 23
  imgRem := Config.freeBits 32 draw 24
  budgetLeft := Config.freeBits 32 draw 25

/-- A free value of `RES_DEV_STATUS` (R37: "otherwise unspecified"; log entry 7). -/
def freeDevStatus (draw : Nat) : Byte := Config.freeBits 8 draw 26

/-- What the configuration registers hold: the value last written, and before the first write since reset "some value"
(70_reset_and_hazards.md R283: "In hardware an unwritten register simply holds some value"), a free value that stays
until the write (log entry 6). -/
def heldConfig (c : ConfigRegs) : ShadowRegs where
  maxWaitPolls := if c.maxWaitPollsWritten then c.maxWaitPolls else Config.freeBits 32 c.draw 0
  pollIntervalMs := if c.pollIntervalMsWritten then c.pollIntervalMs else Config.freeBits 32 c.draw 1
  imgRetryCeil := if c.imgRetryCeilWritten then c.imgRetryCeil else Config.freeBits 32 c.draw 2

/-! ### The frame, the shapes, the chunk -/

/-- The frame of `SEND` (42_executor.md R161): sync, opcode, length, `C_PAYLOAD[0..C_LEN]`. With `C_LEN` above 28, which the
unit's own `SEND` never meets (40_codec.md R126, R131), the frame has the 28 payload bytes there are, a DESIGN CHOICE (log
entry 31): only a `STEP_SEND` word gets there. -/
def sendFrame (p : Params) (c : CommandRegs) : List Byte :=
  frameBytes p.sync c.opcode c.len (c.payload.toList.take c.len.toNat)

/-- `SHAPE_LEN(dec)` (43_decoders.md R186), which gives it for the five fixed shapes. For the two decoders without one it
is 0, a DESIGN CHOICE (log entry 30): dispatch never leads them to `FIXED`, only a `STEP_FIXED` word can. -/
def shapeLen (d : Decoder) : Nat :=
  match d with
  | .version => 19
  | .cameraAngle => 1
  | .threshold => 8
  | .detsize => 12
  | .faceAngle => 2
  | .none | .exec => 0

/-- The chunk size `min(CHUNK_MAX, IMG_REM, a)` (44_execute_image.md R223). With `IMG_REM` at 0, which the unit's own
`IMG_STREAM` never meets (R224), it is 0, a DESIGN CHOICE (log entry 30): only a `STEP_IMG_STREAM` word gets there. -/
def chunkSize (p : Params) (imgRem : Word32) (ready : Nat) : Nat := min p.chunkMax (min imgRem.toNat ready)

end Sys2Proof.Machine
end

