-- ==== Sys2Proof/Machine/Flags.lean ====
section
/-!
DEFINITION. Flags and status: what each one is computed from (10_state.md R34 to R38, R45; 44_execute_image.md R230).
-/

namespace Sys2Proof.Machine

/-- `cmd_ready` (42_executor.md R157). -/
def State.cmdReady (s : State) : Bool := s.phase == .idle

/-- `STATUS` (10_state.md R34): bit 0 `BUSY`, bits [4:1] `PHASE`, the others 0. The width of 32 is a DESIGN CHOICE
(log entry 17). -/
def State.status (s : State) : Word32 :=
  (phaseCode s.phase).setWidth 32 <<< 1 ||| (if s.phase = .idle then 0 else 1)

/-- `cfg_rdata` (R24, 41_poll.md R148): the selected `CFG_` register, 0 for the reserved selector. -/
def State.cfgRdata (s : State) : Word32 :=
  match s.cfgSel.toNat with
  | 0 => (heldConfig s.cfg).maxWaitPolls
  | 1 => (heldConfig s.cfg).pollIntervalMs
  | 2 => (heldConfig s.cfg).imgRetryCeil
  | _ => 0

/-- The `RES_DATA_VALID` that `finish(code)` computes (42_executor.md R160). -/
def dataValidOf (code : ResCode) (d : Decoder) : Bool := code == .ok && d != .none

/-- `consume(k)` (44_execute_image.md R230): the budget saturates at 0 and says so in `RES_OVER_BUDGET`. -/
def consume (k : Nat) (s : State) : State :=
  if k > s.data.budgetLeft.toNat then
    { s with res.overBudget := true, data.budgetLeft := 0 }
  else
    { s with data.budgetLeft := s.data.budgetLeft - BitVec.ofNat 32 k }

/-- The budget test of the wait loop, `TICK >= S_MAX_WAIT_POLLS` (41_poll.md R142). -/
def pollBudgetSpent (tick maxWaitPolls : Word32) : Bool := maxWaitPolls.toNat ≤ tick.toNat

/-- The ceiling test of the drain, `RETRY > S_IMG_RETRY_CEIL` (44_execute_image.md R224). -/
def retryCeilingExceeded (retry : BitVec 33) (ceil : Word32) : Bool := ceil.toNat < retry.toNat

/-- What the accept step must find written since reset (70_reset_and_hazards.md R283): the ceiling only for an execution
with an image, the narrowing that rule allows (log entry 6). -/
def configReady (d : Decoder) (imgreq : Bool) (c : ConfigRegs) : Bool :=
  c.maxWaitPollsWritten && c.pollIntervalMsWritten && (c.imgRetryCeilWritten || !(d == .exec && imgreq))

end Sys2Proof.Machine
end

