-- ==== Sys2Proof/Machine/Ops.lean ====
section
/-!
DEFINITION. The named operations the steps share: the requests of 20_memory.md, `finish`, the latch of the accept step,
the header, dispatch, configuration and reset.
-/

namespace Sys2Proof.Machine

/-! ### One turn of the unit -/

/-- The outcome of one step of the sequencer (00_scope.md R10): it is taken (`finish` among the ways to take it), or
there is none until the other side of a channel moves, or the model refuses it. -/
inductive Turn where
  | moves (s : State)
  | waits
  | refuses (r : Refusal)
  deriving DecidableEq, Repr

/-- A turn as the outcome of an instruction at `s`. While the unit waits nothing of it changes (log entry 8). -/
def Turn.outcome (t : Turn) (s : State) : Host.Outcome State Fault Refusal :=
  match t with
  | .moves s' => .next s'
  | .waits => .next s
  | .refuses r => .refused r

/-! ### Requests (20_memory.md) -/

/-- Append an external request to the trace. -/
def record (e : Event) (s : State) : State := { s with trace := s.trace ++ [e] }

/-- The transport answers the open request: the bytes that came meanwhile join the tail of the inbound stream (R66).
`none`: it has not answered, and until it does the request has moved no byte either way, a DESIGN CHOICE (log entry 34). -/
def takeAnswer (s : State) : Option (Nat × State) :=
  match s.link.answers with
  | [] => none
  | a :: rest => some (a.count, { s with link.inbound := s.link.inbound ++ a.arrived, link.answers := rest })

/-- `TWrite(frame) -> c` (R63): the transport takes a prefix and reports its length. A count above the frame's length
cannot happen, and means all of it. -/
def tWrite (frame : List Byte) (s : State) : Option (Nat × State) :=
  match takeAnswer s with
  | none => none
  | some (c, s) =>
    let c := min c frame.length
    some (c, record (.wrote frame c) { s with link.outbound := s.link.outbound ++ frame.take c })

/-- `TAvail() -> a` (R65): at most what the stream holds (93_implementation_defined.md U8). -/
def tAvail (s : State) : Option (Nat × State) :=
  match takeAnswer s with
  | none => none
  | some (c, s) =>
    let a := min c s.link.inbound.length
    some (a, record (.polled a) s)

/-- `TRead(n) -> bs` (R64): the first `k` bytes of the inbound stream, `k` at most `n`, removed from it. -/
def tRead (n : Nat) (s : State) : Option (List Byte × State) :=
  match takeAnswer s with
  | none => none
  | some (c, s) =>
    let bs := s.link.inbound.take (min c n)
    some (bs, record (.read n bs) { s with link.inbound := s.link.inbound.drop (min c n) })

/-- The bytes of one `SinkWrite` in the sink, a beat each. -/
def sinkTakes (bs : List Byte) (s : State) : State :=
  record (.sank bs) { s with sink := s.sink ++ bs, sinkReady := s.sinkReady - bs.length }

/-- `SinkWrite(bs)` (R67; 10_state.md R26): done when the sink has taken every byte. `none`: it is not ready for all of
them yet (00_scope.md R10 (c); log entry 12). -/
def sinkWrite (bs : List Byte) (s : State) : Option State :=
  if bs.length ≤ s.sinkReady then some (sinkTakes bs s) else none

/-- `Yield(ms)` (R68; 10_state.md R26): the request is raised. -/
def yieldFor (ms : Word32) (s : State) : State :=
  record (.yielded ms) { s with yld.req := true, yld.ms := ms }

/-- The unit resumes when the scheduler has returned from the outstanding yield, if there is one (R26). `yld_ms` keeps the
interval last driven, a DESIGN CHOICE (log entry 29): R26 says nothing of it while `yld_req` is 0. -/
def resume (s : State) : Option State :=
  if s.yld.req then
    match s.yld.acks with
    | 0 => none
    | k + 1 => some { s with yld.req := false, yld.acks := k }
  else some s

/-! ### Ending a command (42_executor.md R160) -/

/-- `finish(code)`: what stands for taking an exception, and for the normal end of a command (60_exceptions.md R251).
With `RES_DATA_VALID = 0` the result data registers hold any value (10_state.md R36), and without `ERR_DEVICE` so does
`RES_DEV_STATUS` (R37): free values (log entry 7). -/
def finish (code : ResCode) (s : State) : State :=
  let ok := dataValidOf code s.cmd.dec
  { s with
    res.code := code
    res.dataValid := ok
    res.devStatus := if code = .device then s.hdr.status else freeDevStatus s.freeIdx
    res.valid := true
    data := if ok then s.data else freeData s.freeIdx
    phase := .idle
    freeIdx := s.freeIdx + 1 }

/-! ### Accepting a command (42_executor.md R158) -/

/-- The writes of the accept step, for a command whose decoder code is legal. A configuration register not written since
reset is latched as it stands: a free value (`heldConfig`), which no step reads then. -/
def latchCommand (d : Decoder) (c : Command) (s : State) : State :=
  { s with
    cmd := ⟨c.opcode, c.len, latchBytes 28 s.freeIdx c.len.toNat c.payload.toList, d, c.imgreq⟩
    shadow := heldConfig s.cfg
    res.valid := false
    res.imgPresent := false
    res.imgIncomplete := false
    res.overBudget := false
    trace := []
    freeIdx := s.freeIdx + 1 }

/-- The length test that ends the accept step (40_codec.md R126, 42_executor.md R158). -/
def admitLength (s : State) : State :=
  if s.cmd.len.toNat > maxPayload then finish .payloadTooLarge s else { s with phase := .send }

/-! ### The response header (42_executor.md R164, R167) -/

/-- Dispatch: the decoder of `C_DEC` is invoked. -/
def dispatch (s : State) : State :=
  match s.cmd.dec with
  | .none => finish .ok s
  | .version | .cameraAngle | .threshold | .detsize | .faceAngle => { s with phase := .fixed }
  | .exec => { s with phase := .exSub }

/-- What a valid header leads to: the budget starts at `H_LEN` (44_execute_image.md R230), then dispatch. -/
def enterDecoder (s : State) : State := dispatch { s with data.budgetLeft := s.hdr.len }

/-- A full header: its fields are registered, validated, and acted on. -/
def takeHeader (h : ResponseHeader) (s : State) : State :=
  let s := { s with hdr := ⟨h.syncByte, h.status, h.payloadLength⟩ }
  match validate s.params.sync h with
  | .badSync => finish .badSync s
  | .deviceError _ => finish .device s
  | .valid => enterDecoder s

/-! ### The image drain (44_execute_image.md R222, R224) -/

/-- The writes of the dimension read (R222): width, height, the budget, `RES_IMG_PRESENT`, `IMG_REM`. -/
def dimensionsTaken (w h : Word16) (s : State) : State :=
  let u := consume imgDimLen { s with data.imgW := w, data.imgH := h }
  { u with res.imgPresent := true, data.imgRem := mul16 w h }

/-- The dimensions of an image are in: the drain starts, or ends at once for an empty image. -/
def takeDimensions (w h : Word16) (s : State) : State :=
  let s := dimensionsTaken w h s
  if s.data.imgRem = 0 then finish .ok s else { s with retry := 0, phase := .imgStream }

/-- The counters after a chunk of `k` bytes, once the sink has it. -/
def chunkTaken (k : Nat) (s : State) : State :=
  let u := consume k { s with data.imgRem := s.data.imgRem - BitVec.ofNat 32 k }
  { u with retry := if s.params.imgRetryResetOnData then 0 else s.retry }

/-- A chunk of `k` bytes counted, and whether the image is complete with it. -/
def takeChunk (k : Nat) (s : State) : State :=
  let s := chunkTaken k s
  if s.data.imgRem = 0 then finish .ok s else { s with phase := .imgStream }

/-- A poll of the drain that brought nothing (44_execute_image.md R224). `RETRY` past its bound, and from 2^33 - 1 to 0,
which 40_codec.md R131 rules out in the unit's own `IMG_STREAM`, is a DESIGN CHOICE (log entry 32): only
`STEP_IMG_STREAM` words get there. -/
def emptyDrainPoll (s : State) : State :=
  let s := { s with retry := s.retry + 1 }
  if retryCeilingExceeded s.retry s.shadow.imgRetryCeil then finish .ok { s with res.imgIncomplete := true }
  else { yieldFor s.shadow.pollIntervalMs s with phase := .imgStream }

/-! ### The host's other moves -/

/-- The host raises `cmd_valid` with a command; it waits on the port until the unit is in IDLE (42_executor.md R157). -/
def offerCommand (c : Command) (s : State) : State := { s with offers := s.offers ++ [c] }

/-- The device sends bytes: the inbound stream grows at its tail (20_memory.md R66). -/
def deliverBytes (bytes : List Byte) (s : State) : State :=
  { s with link.inbound := s.link.inbound ++ bytes }

/-- The host drives `cfg_sel`, to read (41_poll.md R148). -/
def selectConfig (sel : BitVec 2) (s : State) : State := { s with cfgSel := sel }

/-- A write of `CFG_MAX_WAIT_POLLS` (R147). -/
def writeMaxWaitPolls (v : Word32) (s : State) : State :=
  { s with cfg.maxWaitPolls := v, cfg.maxWaitPollsWritten := true }

/-- A write of `CFG_POLL_INTERVAL_MS` (R147). -/
def writePollIntervalMs (v : Word32) (s : State) : State :=
  { s with cfg.pollIntervalMs := v, cfg.pollIntervalMsWritten := true }

/-- A write of `CFG_IMG_RETRY_CEIL` (R147). -/
def writeImgRetryCeil (v : Word32) (s : State) : State :=
  { s with cfg.imgRetryCeil := v, cfg.imgRetryCeilWritten := true }

/-- The host empties the transport's receive buffer, which it may do only while the unit is in IDLE (20_memory.md R62,
R82); while a command is in flight it has no such move (log entry 13). -/
def flushInbound (s : State) : State :=
  if s.phase = .idle then { s with link.inbound := [] } else s

/-- `rst` (70_reset_and_hazards.md R281, R282): every register of the unit takes its reset value, no result is posted;
the transport, the sink, the host's offers, the scheduler's returns to come and the moves to come are the environment's and
stay (log entry 18). `yld_ms` is 0, a DESIGN CHOICE (log entry 29): 10_state.md R26 and R52 say nothing of it. A request
still outstanding has moved no byte, a DESIGN CHOICE too (log entry 34): R281 and 42_executor.md R172 leave it open. -/
def resetUnit (s : State) : State :=
  { State.resetWith s.params with
    cfg.draw := s.freeIdx
    cfgSel := s.cfgSel
    offers := s.offers
    link := s.link
    sink := s.sink
    sinkReady := s.sinkReady
    yld := ⟨false, 0, s.yld.acks⟩
    agenda := s.agenda
    freeIdx := s.freeIdx + 1 }

end Sys2Proof.Machine
end

