-- ==== Sys2Proof/Machine/Sequencer.lean ====
section
/-!
DEFINITION. The ten steps of the sequencer, one turn each, and the meanings of the `STEP_` rows.
-/

namespace Sys2Proof.Machine

/-- The accept step, in `IDLE` (42_executor.md R158). Refused, as that rule lists: `cmd_dec = 7` (30_encoding.md R110), and a
command before the configuration was written (70_reset_and_hazards.md R283; log entry 6). -/
def idleTurn (s : State) : Turn :=
  match s.offers with
  | [] => .waits
  | c :: rest =>
    match decoderOfCode c.dec with
    | none => .refuses .reservedDecoder
    | some d =>
      if configReady d c.imgreq s.cfg then .moves (admitLength (latchCommand d c { s with offers := rest }))
      else .refuses .configUnwritten

/-- The `SEND` step (42_executor.md R161). With `C_LEN` above 28 the whole frame would be longer than what `sendFrame` has, so
the step always ends with `ERR_WRITE`, a DESIGN CHOICE (log entry 31). -/
def sendTurn (s : State) : Turn :=
  match tWrite (sendFrame s.params s.cmd) s with
  | none => .waits
  | some (c, s) =>
    if c < cmdHdrLen + s.cmd.len.toNat then .moves (finish .write s)
    else .moves { s with tick := 0, phase := .wait }

/-- An empty poll of the wait loop (41_poll.md R142). `TICK` past its bound, and from 2^32 - 1 to 0, which 40_codec.md R131
rules out in the unit's own `WAIT`, is a DESIGN CHOICE (log entry 32): only `STEP_WAIT` words get there. -/
def emptyWaitPoll (s : State) : State :=
  let s := { s with tick := s.tick + 1 }
  if pollBudgetSpent s.tick s.shadow.maxWaitPolls then finish .timeout s
  else { yieldFor s.shadow.pollIntervalMs s with phase := .wait }

/-- The `WAIT` step (41_poll.md R142). -/
def waitTurn (s : State) : Turn :=
  match resume s with
  | none => .waits
  | some s =>
    match tAvail s with
    | none => .waits
    | some (a, s) => if a > 0 then .moves { s with phase := .header } else .moves (emptyWaitPoll s)

/-- The `HEADER` step (42_executor.md R164). -/
def headerTurn (s : State) : Turn :=
  match tRead rspHdrLen s with
  | none => .waits
  | some (bs, s) =>
    match decodeHeader bs with
    | none => .moves (finish .shortHeader s)
    | some h => .moves (takeHeader h s)

/-- The `FIXED` step (43_decoders.md R187). -/
def fixedTurn (s : State) : Turn :=
  let n := shapeLen s.cmd.dec
  match tRead n s with
  | none => .waits
  | some (bs, s) =>
    if bs.length < n then .moves (finish .shortRead s)
    else .moves (finish .ok { s with data.rb := latchBytes 19 s.freeIdx n bs, freeIdx := s.freeIdx + 1 })

/-- The `EX_SUB` step (44_execute_image.md R216). The fourth byte is read and discarded (30_encoding.md R109). -/
def exSubTurn (s : State) : Turn :=
  match tRead execSubhdrLen s with
  | none => .waits
  | some (bs, s) =>
    match bs with
    | [body, hand, face, _] =>
      let s := { s with data.bodyCount := body, data.handCount := hand, data.faceCount := face }
      .moves { consume execSubhdrLen s with items := body, phase := .exBody }
    | _ => .moves (finish .shortRead s)

/-- The `EX_BODY` step (44_execute_image.md R218). -/
def exBodyTurn (s : State) : Turn :=
  if s.items = 0 ∨ s.params.bodyItemBytes = 0 then
    .moves { s with items := s.data.handCount, phase := .exHand }
  else
    match tRead s.params.bodyItemBytes s with
    | none => .waits
    | some (bs, s) =>
      if bs.length < s.params.bodyItemBytes then .moves (finish .shortRead s)
      else .moves { consume s.params.bodyItemBytes s with items := s.items - 1, phase := .exBody }

/-- The `EX_HAND` step (44_execute_image.md R219). -/
def exHandTurn (s : State) : Turn :=
  if s.items = 0 ∨ s.params.handItemBytes = 0 then
    if s.cmd.imgreq then .moves { s with phase := .imgDim } else .moves (finish .ok s)
  else
    match tRead s.params.handItemBytes s with
    | none => .waits
    | some (bs, s) =>
      if bs.length < s.params.handItemBytes then .moves (finish .shortRead s)
      else .moves { consume s.params.handItemBytes s with items := s.items - 1, phase := .exHand }

/-- The `IMG_DIM` step (44_execute_image.md R222). -/
def imgDimTurn (s : State) : Turn :=
  match tRead imgDimLen s with
  | none => .waits
  | some (bs, s) =>
    match bs with
    | [w0, w1, h0, h1] => .moves (takeDimensions (b2i w0 w1) (b2i h0 h1) s)
    | _ => .moves (finish .shortRead s)

/-- The `IMG_STREAM` step (44_execute_image.md R224). Its requests to the transport and to the sink are one step, taken
when both transport answers are there and the sink is ready for the whole chunk (log entry 10). With `IMG_REM` at 0 it asks
for 0 bytes and counts an empty poll, a DESIGN CHOICE (log entry 30). -/
def imgStreamTurn (s : State) : Turn :=
  match resume s with
  | none => .waits
  | some s =>
    match tAvail s with
    | none => .waits
    | some (a, s) =>
      if a > 0 then
        match tRead (chunkSize s.params s.data.imgRem a) s with
        | none => .waits
        | some (bs, s) =>
          if bs.length > 0 then
            match sinkWrite bs s with
            | none => .waits
            | some s => .moves (takeChunk bs.length s)
          else .moves (emptyDrainPoll s)
      else .moves (emptyDrainPoll s)

/-- The step that runs in each phase (10_state.md R40). -/
def unitTurn (s : State) : Turn :=
  match s.phase with
  | .idle => idleTurn s
  | .send => sendTurn s
  | .wait => waitTurn s
  | .header => headerTurn s
  | .fixed => fixedTurn s
  | .exSub => exSubTurn s
  | .exBody => exBodyTurn s
  | .exHand => exHandTurn s
  | .imgDim => imgDimTurn s
  | .imgStream => imgStreamTurn s

/-! ### The meanings of the `STEP_` rows

Each row is the step that runs in its phase (10_state.md R40). DESIGN CHOICE (log entry 28): the spec says nothing of a
phase code presented as a word while `PHASE` holds another phase, for `PHASE` is the unit's own register; presented so,
the row runs its step all the same, without a look at `PHASE`. Nor does it look at a yield still outstanding (10_state.md
R26), but for the two steps that yield: the other eight run without `yld_ack` and leave `yld_req` raised, in `IDLE` too.
-/

/-- `STEP_IDLE` (42_executor.md R158); in another phase and with a yield outstanding too, a DESIGN CHOICE (log entry
28). -/
def execStepIdle (s : State) : Host.Outcome State Fault Refusal := (idleTurn s).outcome s

/-- `STEP_SEND` (R161); in another phase and with a yield outstanding too, a DESIGN CHOICE (log entry 28). -/
def execStepSend (s : State) : Host.Outcome State Fault Refusal := (sendTurn s).outcome s

/-- `STEP_WAIT` (41_poll.md R142); in another phase too, a DESIGN CHOICE (log entry 28). -/
def execStepWait (s : State) : Host.Outcome State Fault Refusal := (waitTurn s).outcome s

/-- `STEP_HEADER` (42_executor.md R164); in another phase and with a yield outstanding too, a DESIGN CHOICE (log entry
28). -/
def execStepHeader (s : State) : Host.Outcome State Fault Refusal := (headerTurn s).outcome s

/-- `STEP_FIXED` (43_decoders.md R187); in another phase and with a yield outstanding too, a DESIGN CHOICE (log entry
28). -/
def execStepFixed (s : State) : Host.Outcome State Fault Refusal := (fixedTurn s).outcome s

/-- `STEP_EX_SUB` (44_execute_image.md R216); in another phase and with a yield outstanding too, a DESIGN CHOICE (log entry
28). -/
def execStepExSub (s : State) : Host.Outcome State Fault Refusal := (exSubTurn s).outcome s

/-- `STEP_EX_BODY` (R218); in another phase and with a yield outstanding too, a DESIGN CHOICE (log entry 28). -/
def execStepExBody (s : State) : Host.Outcome State Fault Refusal := (exBodyTurn s).outcome s

/-- `STEP_EX_HAND` (R219); in another phase and with a yield outstanding too, a DESIGN CHOICE (log entry 28). -/
def execStepExHand (s : State) : Host.Outcome State Fault Refusal := (exHandTurn s).outcome s

/-- `STEP_IMG_DIM` (R222); in another phase and with a yield outstanding too, a DESIGN CHOICE (log entry 28). -/
def execStepImgDim (s : State) : Host.Outcome State Fault Refusal := (imgDimTurn s).outcome s

/-- `STEP_IMG_STREAM` (R224); in another phase too, a DESIGN CHOICE (log entry 28). -/
def execStepImgStream (s : State) : Host.Outcome State Fault Refusal := (imgStreamTurn s).outcome s

end Sys2Proof.Machine
end

