-- ==== Sys2Proof/Machine/Channels.lean ====
section
/-!
DEFINITION. The rows that arrive on the `CFG` channel (10_state.md R24) and from the device (30_encoding.md R91).
-/

namespace Sys2Proof.Machine

/-! ### The response header -/

/-- `RESPONSE_HEADER`: the device sends these six bytes. In `HEADER` the unit's `TRead(6)` is answered with six bytes,
the front of the stream they have joined (42_executor.md R164; stale bytes come first, 70_reset_and_hazards.md R290); in
any other phase nothing reads them and they wait in the transport (20_memory.md R66; 70_reset_and_hazards.md R291)
(log entry 16). -/
def execResponseHeader (sync status : Byte) (length : Word32) (s : State) : Host.Outcome State Fault Refusal :=
  let bytes := encodeHeader sync status length
  if s.phase = .header then
    (headerTurn { s with link.answers := ⟨bytes, rspHdrLen⟩ :: s.link.answers }).outcome s
  else .next (deliverBytes bytes s)

/-! ### The configuration channel (41_poll.md R147): accepted in every phase, seen by the next accept step -/

/-- `CFG_WRITE_MAX_WAIT_POLLS` (10_state.md R30). -/
def execCfgWriteMaxWaitPolls (wdata : Word32) (s : State) : Host.Outcome State Fault Refusal :=
  .next (writeMaxWaitPolls wdata (selectConfig 0 s))

/-- `CFG_WRITE_POLL_INTERVAL_MS` (R31). -/
def execCfgWritePollIntervalMs (wdata : Word32) (s : State) : Host.Outcome State Fault Refusal :=
  .next (writePollIntervalMs wdata (selectConfig 1 s))

/-- `CFG_WRITE_IMG_RETRY_CEIL` (R32). -/
def execCfgWriteImgRetryCeil (wdata : Word32) (s : State) : Host.Outcome State Fault Refusal :=
  .next (writeImgRetryCeil wdata (selectConfig 2 s))

/-- `CFG_SEL_RESERVED` (R24): a write changes nothing, and a read at this selector returns 0 (`State.cfgRdata`). -/
def execCfgSelReserved (_ : Word32) (s : State) : Host.Outcome State Fault Refusal := .next (selectConfig 3 s)

end Sys2Proof.Machine
end

