-- ==== Sys2Proof/Machine/Run.lean ====
section
/-!
DEFINITION. Running the unit on from a state, as far as the environment has answered.
-/

namespace Sys2Proof.Machine

/-- Steps of the sequencer, at most `fuel`, until `stop` holds or the unit waits. -/
def runUnit (stop : State → Bool) (fuel : Nat) (s : State) : Host.Outcome State Fault Refusal :=
  match fuel with
  | 0 => .next s
  | n + 1 =>
    if stop s then .next s
    else match unitTurn s with
      | .waits => .next s
      | .refuses r => .refused r
      | .moves s' => runUnit stop n s'

/-- A bound on the steps the unit can take before it waits: each takes an answer of the transport, but for the accept
step and, once in a command, the moves out of `EX_BODY` and out of `EX_HAND` (42_executor.md R171). -/
def turnBudget (s : State) : Nat := s.link.answers.length + 3 * s.offers.length + 2

/-- The unit runs until it waits: for the transport, for the scheduler, or in IDLE for a command. -/
def runUntilWaits (s : State) : Host.Outcome State Fault Refusal := runUnit (fun _ => false) (turnBudget s) s

/-- The unit runs until the command in flight has finished, or it waits. -/
def runUntilIdle (s : State) : Host.Outcome State Fault Refusal := runUnit (fun t => t.phase == .idle) (turnBudget s) s

/-- A command line of 30_encoding.md R113: "wait for `cmd_ready`, present the command, wait for `res_valid`". The command
goes on the port and the unit runs: a command in flight first (42_executor.md R157), then this one, by the sequence of
42_executor.md R155 (log entry 14). -/
def presentCommand (c : Command) (s : State) : Host.Outcome State Fault Refusal := runUntilWaits (offerCommand c s)

/-- A decoder invoked as dispatch invokes it, by the code in `C_DEC` (42_executor.md R167), with the payload length of the
header registers and the open read handle (43_decoders.md R185), and run to its end. `C_DEC` is written by the accept step
alone (10_state.md R27): where it holds another code, dispatch does not choose this decoder and nothing happens
(log entry 15). A yield still outstanding is not waited for, a DESIGN CHOICE of the same entry. No accept comes before it, so
the flags of 10_state.md R38 and the trace are those an earlier command left, a DESIGN CHOICE (log entry 33): `DEC_EXEC` may
end with `RES_IMG_INCOMPLETE` still 1, and the typed result's image then begins with the earlier bytes. -/
def invokeDecoder (d : Decoder) (s : State) : Host.Outcome State Fault Refusal :=
  if s.cmd.dec = d then runUntilIdle (enterDecoder s) else .next s

end Sys2Proof.Machine
end

