-- ==== Sys2Proof/Machine/Commands.lean ====
section
/-!
DEFINITION. The ten commands of 30_encoding.md R97. Each presents its opcode with its bound decoder and runs the same
sequence: accept, `SEND`, `WAIT`, `HEADER`, the decoder (43_decoders.md section 3).
-/

namespace Sys2Proof.Machine

/-- `GET_VERSION` (43_decoders.md R196). Decoder `DEC_VERSION`; VersionInfo in `RB[0..19)`. -/
def execGetVersion (len : Word16) (payload : List Byte) (s : State) : Host.Outcome State Fault Refusal :=
  presentCommand (commandOf s.params .getVersion len payload false) s

/-- `SET_CAMERA_ANGLE` (R197). Decoder `DEC_NONE`; the result code alone. -/
def execSetCameraAngle (len : Word16) (payload : List Byte) (s : State) : Host.Outcome State Fault Refusal :=
  presentCommand (commandOf s.params .setCameraAngle len payload false) s

/-- `GET_CAMERA_ANGLE` (R198). Decoder `DEC_CAMERA_ANGLE`; CameraAngle in `RB[0]`. -/
def execGetCameraAngle (len : Word16) (payload : List Byte) (s : State) : Host.Outcome State Fault Refusal :=
  presentCommand (commandOf s.params .getCameraAngle len payload false) s

/-- `SET_THRESHOLD` (R199). Decoder `DEC_NONE`; the result code alone. -/
def execSetThreshold (len : Word16) (payload : List Byte) (s : State) : Host.Outcome State Fault Refusal :=
  presentCommand (commandOf s.params .setThreshold len payload false) s

/-- `GET_THRESHOLD` (R200). Decoder `DEC_THRESHOLD`; ThresholdValues in `RB[0..8)`. -/
def execGetThreshold (len : Word16) (payload : List Byte) (s : State) : Host.Outcome State Fault Refusal :=
  presentCommand (commandOf s.params .getThreshold len payload false) s

/-- `SET_DETECTION_SIZE` (R201). Decoder `DEC_NONE`; the result code alone. -/
def execSetDetectionSize (len : Word16) (payload : List Byte) (s : State) : Host.Outcome State Fault Refusal :=
  presentCommand (commandOf s.params .setDetectionSize len payload false) s

/-- `GET_DETECTION_SIZE` (R202). Decoder `DEC_DETSIZE`; DetectionSize in `RB[0..12)`. -/
def execGetDetectionSize (len : Word16) (payload : List Byte) (s : State) : Host.Outcome State Fault Refusal :=
  presentCommand (commandOf s.params .getDetectionSize len payload false) s

/-- `SET_FACE_ANGLE` (R203). Decoder `DEC_NONE`; the result code alone. -/
def execSetFaceAngle (len : Word16) (payload : List Byte) (s : State) : Host.Outcome State Fault Refusal :=
  presentCommand (commandOf s.params .setFaceAngle len payload false) s

/-- `GET_FACE_ANGLE` (R204). Decoder `DEC_FACE_ANGLE`; FaceAngle in `RB[0..2)`. -/
def execGetFaceAngle (len : Word16) (payload : List Byte) (s : State) : Host.Outcome State Fault Refusal :=
  presentCommand (commandOf s.params .getFaceAngle len payload false) s

/-- `EXECUTE` (44_execute_image.md R215). Decoder `DEC_EXEC`; ExecutionResult, and the image at the sink when `cmd_imgreq`
is 1 (R220). The payload is not parsed (30_encoding.md R115). -/
def execExecute (len : Word16) (payload : List Byte) (imgreq : Bool) (s : State) : Host.Outcome State Fault Refusal :=
  presentCommand (commandOf s.params .execute len payload imgreq) s

end Sys2Proof.Machine
end

