-- ==== Sys2Proof/Machine/Decoders.lean ====
section
/-!
DEFINITION. The decoder codes of 30_encoding.md R105: each invokes its decoder.
-/

namespace Sys2Proof.Machine

/-- `DEC_NONE` (43_decoders.md R195): consumes nothing; the result is the code alone. -/
def execDecNone (s : State) : Host.Outcome State Fault Refusal := invokeDecoder .none s

/-- `DEC_VERSION` (R190): consumes 19 bytes. -/
def execDecVersion (s : State) : Host.Outcome State Fault Refusal := invokeDecoder .version s

/-- `DEC_CAMERA_ANGLE` (R191): consumes 1 byte. -/
def execDecCameraAngle (s : State) : Host.Outcome State Fault Refusal := invokeDecoder .cameraAngle s

/-- `DEC_THRESHOLD` (R192): consumes 8 bytes. -/
def execDecThreshold (s : State) : Host.Outcome State Fault Refusal := invokeDecoder .threshold s

/-- `DEC_DETSIZE` (R193): consumes 12 bytes. -/
def execDecDetsize (s : State) : Host.Outcome State Fault Refusal := invokeDecoder .detsize s

/-- `DEC_FACE_ANGLE` (R194): consumes 2 bytes. -/
def execDecFaceAngle (s : State) : Host.Outcome State Fault Refusal := invokeDecoder .faceAngle s

/-- `DEC_EXEC` (44_execute_image.md R215): the sub-header, the blocks and, if `C_IMGREQ` is 1, the image. -/
def execDecExec (s : State) : Host.Outcome State Fault Refusal := invokeDecoder .exec s

/-- `DEC_RESERVED` (30_encoding.md R110): "A model refuses a command with `cmd_dec = 7` (no step, marked refused);
hardware behaviour for it is not defined by this spec". -/
def execDecReserved (_ : State) : Host.Outcome State Fault Refusal := .refused .reservedDecoder

end Sys2Proof.Machine
end

