-- ==== Sys2Proof/Machine/Dispatch.lean ====
section
/-!
DEFINITION. One arm per row of spec/opcode_table.json, each a direct call of that instruction's meaning.
-/

namespace Sys2Proof.Machine

def exec (i : Instr) (s : State) : Host.Outcome State Fault Refusal :=
  match i with
  -- Commands
  | .getVersion len payload => Sys2Proof.Machine.execGetVersion len payload s
  | .setCameraAngle len payload => Sys2Proof.Machine.execSetCameraAngle len payload s
  | .getCameraAngle len payload => Sys2Proof.Machine.execGetCameraAngle len payload s
  | .execute len payload imgreq => Sys2Proof.Machine.execExecute len payload imgreq s
  | .setThreshold len payload => Sys2Proof.Machine.execSetThreshold len payload s
  | .getThreshold len payload => Sys2Proof.Machine.execGetThreshold len payload s
  | .setDetectionSize len payload => Sys2Proof.Machine.execSetDetectionSize len payload s
  | .getDetectionSize len payload => Sys2Proof.Machine.execGetDetectionSize len payload s
  | .setFaceAngle len payload => Sys2Proof.Machine.execSetFaceAngle len payload s
  | .getFaceAngle len payload => Sys2Proof.Machine.execGetFaceAngle len payload s
  -- Response header
  | .responseHeader sync status length => Sys2Proof.Machine.execResponseHeader sync status length s
  -- Decoder codes
  | .decNone => Sys2Proof.Machine.execDecNone s
  | .decVersion => Sys2Proof.Machine.execDecVersion s
  | .decCameraAngle => Sys2Proof.Machine.execDecCameraAngle s
  | .decThreshold => Sys2Proof.Machine.execDecThreshold s
  | .decDetsize => Sys2Proof.Machine.execDecDetsize s
  | .decFaceAngle => Sys2Proof.Machine.execDecFaceAngle s
  | .decExec => Sys2Proof.Machine.execDecExec s
  | .decReserved => Sys2Proof.Machine.execDecReserved s
  -- Sequencer phases
  | .stepIdle => Sys2Proof.Machine.execStepIdle s
  | .stepSend => Sys2Proof.Machine.execStepSend s
  | .stepWait => Sys2Proof.Machine.execStepWait s
  | .stepHeader => Sys2Proof.Machine.execStepHeader s
  | .stepFixed => Sys2Proof.Machine.execStepFixed s
  | .stepExSub => Sys2Proof.Machine.execStepExSub s
  | .stepExBody => Sys2Proof.Machine.execStepExBody s
  | .stepExHand => Sys2Proof.Machine.execStepExHand s
  | .stepImgDim => Sys2Proof.Machine.execStepImgDim s
  | .stepImgStream => Sys2Proof.Machine.execStepImgStream s
  -- Configuration selectors
  | .cfgWriteMaxWaitPolls wdata => Sys2Proof.Machine.execCfgWriteMaxWaitPolls wdata s
  | .cfgWritePollIntervalMs wdata => Sys2Proof.Machine.execCfgWritePollIntervalMs wdata s
  | .cfgWriteImgRetryCeil wdata => Sys2Proof.Machine.execCfgWriteImgRetryCeil wdata s
  | .cfgSelReserved wdata => Sys2Proof.Machine.execCfgSelReserved wdata s

end Sys2Proof.Machine
end

