-- ==== Sys2Proof/Machine/Fetch.lean ====
section
/-!
DEFINITION. What the machine does next: the move at the head of the agenda, and the word it brings (log entries 1, 4).
-/

namespace Sys2Proof.Machine

/-- The unit's own next word: the code of `PHASE`, which plays the part of a program counter (10_state.md R39). -/
def phaseWord (s : State) : PortWord := ⟨.phase, [(phaseCode s.phase).setWidth 8], 0⟩

/-- What a move leads to: an instruction word with the state it runs in, or a next state. -/
inductive Fetched where
  | run (w : PortWord) (s : State)
  | moved (s : State)
  deriving DecidableEq, Repr

/-- A move that brings no word. -/
def environmentMove (m : Move) (s : State) : State :=
  match m with
  | .unit | .word _ => s
  | .offer c => offerCommand c s
  | .cfgRead sel => selectConfig sel s
  | .answer a => { s with link.answers := s.link.answers ++ [a] }
  | .ack => { s with yld.acks := s.yld.acks + 1 }
  | .sinkReady beats => { s with sinkReady := s.sinkReady + beats }
  | .deliver bytes => deliverBytes bytes s
  | .flush => flushInbound s
  | .rst => resetUnit s

/-- The next move is taken off the agenda; with none there the unit moves. -/
def fetch (s : State) : Fetched :=
  match s.agenda with
  | [] => .run (phaseWord s) s
  | .unit :: rest => .run (phaseWord s) { s with agenda := rest }
  | .word w :: rest => .run w { s with agenda := rest }
  | m :: rest => .moved (environmentMove m { s with agenda := rest })

/-- The host has written the configuration registers with the values they hold, which a command needs
(70_reset_and_hazards.md R283, R285). -/
def markConfigured (s : State) : State :=
  let held := heldConfig s.cfg
  { s with cfg := ⟨held.maxWaitPolls, held.pollIntervalMs, held.imgRetryCeil, true, true, true, s.cfg.draw⟩ }

/-- A word placed so that the very next step runs it: a phase code in `PHASE` with the unit to move, any other word at
the head of the agenda, a command after the host's bring-up, and for a decoder code `C_DEC` holding it, as the accept of its
command leaves it (log entry 4). -/
def placeWord (w : PortWord) (s : State) : State :=
  let code := (w.bytes.headD 0).toNat
  let present := { s with agenda := .word w :: s.agenda }
  match w.format with
  | .phase =>
    match phaseOfCode code with
    | some p => { s with phase := p, agenda := .unit :: s.agenda }
    | none => present
  | .cmdFrame => markConfigured present
  | .cmdDec =>
    match decoderOfCode (BitVec.ofNat 3 code) with
    | some d => { present with cmd.dec := d }
    | none => present
  | _ => present

/-- The word the opcode table numbers `w`, placed. -/
def placeTableWord (s : State) (nbits w : Nat) : State :=
  match tableWord nbits w with
  | none => s
  | some word => placeWord word s

end Sys2Proof.Machine
end

