-- ==== Sys2Proof/Machine/Step.lean ====
section
/-!
DEFINITION. One step of the machine: the next move is taken; a word it brings is decoded and executed.
-/

namespace Sys2Proof.Machine

/-- One step (00_scope.md R10): the next move of the agenda, or the unit's own; a word is decoded with the machine's
parameters and run, and a word that encodes nothing stops the machine. -/
def step (s : State) : Host.Outcome State Fault Refusal :=
  match fetch s with
  | .moved s' => .next s'
  | .run w s' =>
    match decode s'.params w with
    | .ok i => exec i s'
    | .error e => .fault (.undecodable e)

/-- The word the opcode table numbers `w`, stored where `step` fetches next (log entry 4). -/
def State.withFetchWord (s : State) (nbits w : Nat) : State := placeTableWord s nbits w

end Sys2Proof.Machine
end

