-- ==== Sys2Proof/Machine/BigStep.lean ====
section
/-!
DEFINITION. The big-step function `execute` of 42_executor.md R173, written as that rule's program, without phases. `none`
is a request the environment has not answered. It "must agree with the step rules on every environment".
-/

namespace Sys2Proof.Machine

/-- The poll loop (R173): `true` when bytes are ready, `false` when the poll budget is spent. -/
def bigPoll (fuel : Nat) (s : State) : Option (Bool × State) :=
  match fuel with
  | 0 => none
  | n + 1 => do
    let s ← resume s
    let (a, s) ← tAvail s
    if a > 0 then some (true, s)
    else
      let s := { s with tick := s.tick + 1 }
      if pollBudgetSpent s.tick s.shadow.maxWaitPolls then some (false, s)
      else bigPoll n (yieldFor s.shadow.pollIntervalMs s)

/-- Metadata blocks of one kind (44_execute_image.md R218, R219): `ITEMS` reads of `size` bytes, none when `size` is 0.
`false` on a short read. -/
def bigBlocks (size fuel : Nat) (s : State) : Option (Bool × State) :=
  match fuel with
  | 0 => none
  | n + 1 =>
    if s.items = 0 ∨ size = 0 then some (true, s)
    else do
      let (bs, s) ← tRead size s
      if bs.length < size then some (false, s)
      else bigBlocks size n { consume size s with items := s.items - 1 }

/-- The stream of the image drain (R224), until it is done or degraded. -/
def bigStream (fuel : Nat) (s : State) : Option State :=
  match fuel with
  | 0 => none
  | n + 1 => do
    let s ← resume s
    let (a, s) ← tAvail s
    let (bs, s) ← if a > 0 then tRead (chunkSize s.params s.data.imgRem a) s else some ([], s)
    if bs.length > 0 then
      let s ← sinkWrite bs s
      let s := chunkTaken bs.length s
      if s.data.imgRem = 0 then some (finish .ok s) else bigStream n s
    else
      let s := { s with retry := s.retry + 1 }
      if retryCeilingExceeded s.retry s.shadow.imgRetryCeil then
        some (finish .ok { s with res.imgIncomplete := true })
      else bigStream n (yieldFor s.shadow.pollIntervalMs s)

/-- The image (R222): dimensions, then the stream unless it is empty. -/
def bigImage (s : State) : Option State := do
  let (bs, s) ← tRead imgDimLen s
  match bs with
  | [w0, w1, h0, h1] =>
    let s := dimensionsTaken (b2i w0 w1) (b2i h0 h1) s
    if s.data.imgRem = 0 then some (finish .ok s)
    else bigStream (s.link.answers.length + 1) { s with retry := 0 }
  | _ => some (finish .shortRead s)

/-- The execution-result decoder (44_execute_image.md R215 to R222). -/
def bigExec (s : State) : Option State := do
  let (bs, s) ← tRead execSubhdrLen s
  match bs with
  | [body, hand, face, _] =>
    let s := consume execSubhdrLen
      { s with data.bodyCount := body, data.handCount := hand, data.faceCount := face }
    let (bodies, s) ← bigBlocks s.params.bodyItemBytes (s.link.answers.length + 1) { s with items := body }
    if !bodies then some (finish .shortRead s)
    else
      let (hands, s) ← bigBlocks s.params.handItemBytes (s.link.answers.length + 1)
        { s with items := s.data.handCount }
      if !hands then some (finish .shortRead s)
      else if s.cmd.imgreq then bigImage s
      else some (finish .ok s)
  | _ => some (finish .shortRead s)

/-- `decode_dec` of R173: the decoder of `C_DEC`. -/
def bigDecode (s : State) : Option State :=
  match s.cmd.dec with
  | .none => some (finish .ok s)
  | .exec => bigExec s
  | d => do
    let (bs, s) ← tRead (shapeLen d) s
    if bs.length < shapeLen d then some (finish .shortRead s)
    else some (finish .ok { s with data.rb := latchBytes 19 s.freeIdx (shapeLen d) bs, freeIdx := s.freeIdx + 1 })

/-- `execute(op, payload, dec, imgreq, cfg)` of R173, after the accept step's latches (R158). -/
def bigExecute (d : Decoder) (c : Command) (s : State) : Option State :=
  let s := latchCommand d c s
  if s.cmd.len.toNat > maxPayload then some (finish .payloadTooLarge s)
  else do
    let (count, s) ← tWrite (sendFrame s.params s.cmd) s
    if count < cmdHdrLen + s.cmd.len.toNat then some (finish .write s)
    else
      let (ready, s) ← bigPoll (s.link.answers.length + 1) { s with tick := 0 }
      if !ready then some (finish .timeout s)
      else
        let (bs, s) ← tRead rspHdrLen s
        match decodeHeader bs with
        | none => some (finish .shortHeader s)
        | some h =>
          let s := { s with hdr := ⟨h.syncByte, h.status, h.payloadLength⟩ }
          match validate s.params.sync h with
          | .badSync => some (finish .badSync s)
          | .deviceError _ => some (finish .device s)
          | .valid => bigDecode { s with data.budgetLeft := s.hdr.len }

end Sys2Proof.Machine
end

