-- ==== Sys2Proof/Machine/Views.lean ====
section
/-!
DEFINITION. The typed results the host reads: views of the result registers, not storage (10_state.md R29;
43_decoders.md R190 to R194; 44_execute_image.md R228).
-/

namespace Sys2Proof.Machine

/-- VersionInfo (43_decoders.md R190). -/
structure VersionInfo where
  model : List Byte
  major : Byte
  minor : Byte
  release : Byte
  revision : List Byte
  deriving DecidableEq, Repr

/-- ThresholdValues (R192). -/
structure ThresholdValues where
  body : Word16
  hand : Word16
  face : Word16
  recognition : Word16
  deriving DecidableEq, Repr

/-- DetectionSize (R193). -/
structure DetectionSize where
  bodyMin : Word16
  bodyMax : Word16
  handMin : Word16
  handMax : Word16
  faceMin : Word16
  faceMax : Word16
  deriving DecidableEq, Repr

/-- ImagePayload with the completeness the drain reports (44_execute_image.md R228). -/
structure ImageView where
  width : Word16
  height : Word16
  bytes : List Byte
  complete : Bool
  deriving DecidableEq, Repr

/-- ExecutionResult (R228). -/
structure ExecutionResult where
  bodyCount : Byte
  handCount : Byte
  faceCount : Byte
  image : Option ImageView
  deriving DecidableEq, Repr

/-- TypedResponse: the variant of the command's decoder (30_encoding.md R97). -/
inductive TypedResponse where
  | version (v : VersionInfo)
  | cameraAngle (angle : Byte)
  | threshold (v : ThresholdValues)
  | detectionSize (v : DetectionSize)
  | faceAngle (yaw roll : Byte)
  | execution (v : ExecutionResult)
  deriving DecidableEq, Repr

/-- Byte `i` of `RB`. -/
def rbAt (d : DataRegs) (i : Fin 19) : Byte := d.rb[i]

/-- VersionInfo from `RB` (43_decoders.md R190). -/
def versionView (d : DataRegs) : VersionInfo where
  model := d.rb.toList.take 12
  major := rbAt d 12
  minor := rbAt d 13
  release := rbAt d 14
  revision := (d.rb.toList.drop 15).take 4

/-- ThresholdValues from `RB` (R192). -/
def thresholdView (d : DataRegs) : ThresholdValues where
  body := b2i (rbAt d 0) (rbAt d 1)
  hand := b2i (rbAt d 2) (rbAt d 3)
  face := b2i (rbAt d 4) (rbAt d 5)
  recognition := b2i (rbAt d 6) (rbAt d 7)

/-- DetectionSize from `RB` (R193). -/
def detectionSizeView (d : DataRegs) : DetectionSize where
  bodyMin := b2i (rbAt d 0) (rbAt d 1)
  bodyMax := b2i (rbAt d 2) (rbAt d 3)
  handMin := b2i (rbAt d 4) (rbAt d 5)
  handMax := b2i (rbAt d 6) (rbAt d 7)
  faceMin := b2i (rbAt d 8) (rbAt d 9)
  faceMax := b2i (rbAt d 10) (rbAt d 11)

/-- What the sink received in a trace, in order (20_memory.md R81). -/
def sinkOf (trace : List Event) : List Byte :=
  match trace with
  | [] => []
  | .sank bs :: rest => bs ++ sinkOf rest
  | _ :: rest => sinkOf rest

/-- ExecutionResult from the registers, the image's bytes being what the sink received in this command (R228). -/
def executionView (s : State) : ExecutionResult where
  bodyCount := s.data.bodyCount
  handCount := s.data.handCount
  faceCount := s.data.faceCount
  image :=
    if s.res.imgPresent then
      some ⟨s.data.imgW, s.data.imgH, sinkOf s.trace, !s.res.imgIncomplete⟩
    else none

/-- The typed result as the host sees it: present only while `RES_VALID` and `RES_DATA_VALID` are 1, "absence signals
failure" (10_state.md R23, R36; 43_decoders.md R205). -/
def State.typedResult (s : State) : Option TypedResponse :=
  if s.res.valid && s.res.dataValid then
    match s.cmd.dec with
    | .none => none
    | .version => some (.version (versionView s.data))
    | .cameraAngle => some (.cameraAngle (rbAt s.data 0))
    | .threshold => some (.threshold (thresholdView s.data))
    | .detsize => some (.detectionSize (detectionSizeView s.data))
    | .faceAngle => some (.faceAngle (rbAt s.data 0) (rbAt s.data 1))
    | .exec => some (.execution (executionView s))
  else none

/-- The diagnostic value of a failed command (43_decoders.md R205): the code, with the device's status for
`ERR_DEVICE`. -/
def State.diagnostic (s : State) : Option (BitVec 4 × Option Byte) :=
  if s.res.valid && s.res.code != .ok then
    some (resCodeNumber s.res.code, if s.res.code = .device then some s.res.devStatus else none)
  else none

end Sys2Proof.Machine
end

