-- ==== Sys2Proof/Safety.lean ====
section
/-!
DEFINITION. What a sound state of the unit is, in the terms the statements use: the control invariant, and the accounts
that a trace of requests keeps (10_state.md R40 to R44, 41_poll.md R143, 60_exceptions.md R252, 44_execute_image.md R225).
-/

namespace Sys2Proof.Machine

/-! ### What a trace holds -/

/-- `TWrite` requests in a trace. -/
def writesIn (trace : List Event) : Nat :=
  match trace with
  | [] => 0
  | .wrote _ _ :: rest => 1 + writesIn rest
  | _ :: rest => writesIn rest

/-- `TAvail` requests in a trace. -/
def pollsIn (trace : List Event) : Nat :=
  match trace with
  | [] => 0
  | .polled _ :: rest => 1 + pollsIn rest
  | _ :: rest => pollsIn rest

/-- `Yield` requests in a trace. -/
def yieldsIn (trace : List Event) : Nat :=
  match trace with
  | [] => 0
  | .yielded _ :: rest => 1 + yieldsIn rest
  | _ :: rest => yieldsIn rest

/-- The inbound bytes a trace consumed, in order. -/
def readIn (trace : List Event) : List Byte :=
  match trace with
  | [] => []
  | .read _ bs :: rest => bs ++ readIn rest
  | _ :: rest => readIn rest

/-! ### Waiting, and words only an agent outside the unit presents -/

/-- The unit has no step until another agent moves (00_scope.md R10 (c)). -/
abbrev Waiting (s : State) : Prop := unitTurn s = .waits

/-- A move that brings no decoder code and no phase code: those are the unit's own registers, never a channel's word
(30_encoding.md R105, 10_state.md R40; log entry 15). -/
def Move.external (m : Move) : Bool :=
  match m with
  | .word w => w.format != .cmdDec && w.format != .phase
  | _ => true

/-- Every move to come is one an agent of 10_state.md R20 has. -/
abbrev AgendaExternal (s : State) : Prop := ∀ m ∈ s.agenda, m.external = true

/-! ### Phases -/

/-- The phases of a decoder, entered only after a valid header (42_executor.md R156, R166). -/
def Phase.decoding (p : Phase) : Bool :=
  match p with
  | .fixed | .exSub | .exBody | .exHand | .imgDim | .imgStream => true
  | _ => false

/-- The phases of the execution-result decoder (44_execute_image.md R215). -/
def Phase.executing (p : Phase) : Bool :=
  match p with
  | .exSub | .exBody | .exHand | .imgDim | .imgStream => true
  | _ => false

/-- The phases of the image drain (44_execute_image.md R221). -/
def Phase.draining (p : Phase) : Bool :=
  match p with
  | .imgDim | .imgStream => true
  | _ => false

/-! ### The control invariant -/

/-- What the sequencer's registers keep to, whatever the environment does. -/
structure ControlInv (s : State) : Prop where
  /-- the moves to come are the agents' own -/
  external : AgendaExternal s
  /-- a yield is outstanding only in the two waiting phases (20_memory.md R68) -/
  yields : s.yld.req = true → s.phase = .wait ∨ s.phase = .imgStream
  /-- `RES_VALID` is 0 while a command is in flight (10_state.md R35) -/
  busy : s.phase ≠ .idle → s.res.valid = false
  /-- a command in flight has an admissible length (42_executor.md R158) -/
  admitted : s.phase ≠ .idle → s.cmd.len.toNat ≤ maxPayload
  /-- `TICK` is below `max(S_MAX_WAIT_POLLS, 1)` while the wait goes on (10_state.md R41) -/
  ticks : s.phase = .wait → s.tick.toNat < max s.shadow.maxWaitPolls.toNat 1
  /-- no decoder runs but after a valid header (42_executor.md R166) -/
  validHeader : s.phase.decoding = true → s.hdr.sync = s.params.sync ∧ s.hdr.status = 0
  /-- `FIXED` runs for a fixed shape only (42_executor.md R167) -/
  fixedShape : s.phase = .fixed → s.cmd.dec ≠ .none ∧ s.cmd.dec ≠ .exec
  /-- the execution phases run for `DEC_EXEC` only (42_executor.md R167) -/
  execShape : s.phase.executing = true → s.cmd.dec = .exec
  /-- the drain runs only when an image was asked for (44_execute_image.md R220) -/
  imageAsked : s.phase.draining = true → s.cmd.imgreq = true
  /-- the stream has bytes outstanding, a counter within the ceiling, and dimensions read (44_execute_image.md R224) -/
  streaming : s.phase = .imgStream →
    s.data.imgRem ≠ 0 ∧ s.retry.toNat ≤ s.shadow.imgRetryCeil.toNat ∧ s.res.imgPresent = true
  /-- an image is present only for `DEC_EXEC` with an image asked for (44_execute_image.md R220) -/
  imagePresent : s.res.imgPresent = true → s.cmd.dec = .exec ∧ s.cmd.imgreq = true
  /-- an incomplete image is a finished `OK` with bytes missing (44_execute_image.md R225) -/
  degraded : s.res.imgIncomplete = true →
    s.phase = .idle ∧ s.res.imgPresent = true ∧ s.res.code = .ok ∧ s.data.imgRem ≠ 0
  /-- Done: an image present and not incomplete in a finished `OK` has no byte missing (44_execute_image.md R225) -/
  complete : s.res.valid = true → s.res.code = .ok → s.res.imgPresent = true → s.res.imgIncomplete = false →
    s.data.imgRem = 0
  /-- `RES_DATA_VALID` is what `finish` computes (10_state.md R36) -/
  dataValid : s.res.valid = true → s.res.dataValid = dataValidOf s.res.code s.cmd.dec

/-! ### The poll account (41_poll.md R143) -/

/-- One `TWrite` before the wait, a poll and a yield for every tick in it, and at a timeout exactly `max(N, 1)` polls with
a yield between each two. -/
structure PollInv (s : State) : Prop where
  control : ControlInv s
  unsent : s.phase = .send → s.trace = []
  waiting : s.phase = .wait →
    writesIn s.trace = 1 ∧ pollsIn s.trace = s.tick.toNat ∧ yieldsIn s.trace = s.tick.toNat
  ready : s.phase = .header →
    writesIn s.trace = 1 ∧ pollsIn s.trace = s.tick.toNat + 1 ∧ yieldsIn s.trace = s.tick.toNat
  timedOut : s.res.valid = true → s.res.code = .timeout →
    s.tick.toNat = max s.shadow.maxWaitPolls.toNat 1 ∧ writesIn s.trace = 1 ∧
    pollsIn s.trace = s.tick.toNat ∧ yieldsIn s.trace = s.tick.toNat - 1
  /-- at most one send per command (20_memory.md R61) -/
  oneSend : writesIn s.trace ≤ 1

/-! ### The byte account (60_exceptions.md R252, 30_encoding.md R103) -/

/-- Bytes of the header, the sub-header and the metadata blocks of an execution (30_encoding.md R103). -/
def execPrefixLen (s : State) : Nat :=
  rspHdrLen + execSubhdrLen + s.data.bodyCount.toNat * s.params.bodyItemBytes +
    s.data.handCount.toNat * s.params.handItemBytes

/-- How many inbound bytes the command in flight has consumed, by phase. -/
def consumedInPhase (s : State) : Nat :=
  match s.phase with
  | .idle | .send | .wait | .header => 0
  | .fixed | .exSub => rspHdrLen
  | .exBody => rspHdrLen + execSubhdrLen + (s.data.bodyCount.toNat - s.items.toNat) * s.params.bodyItemBytes
  | .exHand =>
    rspHdrLen + execSubhdrLen + s.data.bodyCount.toNat * s.params.bodyItemBytes +
      (s.data.handCount.toNat - s.items.toNat) * s.params.handItemBytes
  | .imgDim => execPrefixLen s
  | .imgStream => execPrefixLen s + imgDimLen + (sinkOf s.trace).length

/-- How many inbound bytes a finished command consumed: `low` to `high` (R252). For `OK` the count is exact. A short read
of a fixed shape took fewer than its bytes; in an execution the counts are no result then (10_state.md R36), so the bound
is the largest prefix and a short read of the dimensions. One read for each thing is 92_eei_decisions.md D11. -/
def consumedAtEnd (s : State) : Nat × Nat :=
  match s.res.code with
  | .payloadTooLarge | .write | .timeout => (0, 0)
  | .shortHeader => (0, 5)
  | .badSync | .device => (rspHdrLen, rspHdrLen)
  | .shortRead =>
    match s.cmd.dec with
    | .exec =>
      (rspHdrLen, rspHdrLen + execSubhdrLen + 255 * s.params.bodyItemBytes + 255 * s.params.handItemBytes +
        (imgDimLen - 1))
    | d => (rspHdrLen, rspHdrLen + shapeLen d - 1)
  | .ok =>
    match s.cmd.dec with
    | .exec =>
      let n := execPrefixLen s + (if s.res.imgPresent then imgDimLen + (sinkOf s.trace).length else 0)
      (n, n)
    | d => (rspHdrLen + shapeLen d, rspHdrLen + shapeLen d)

/-- The bytes consumed are exactly those the rules list, in flight and at the end; the sink has the image bytes as they
came, and `IMG_REM` counts those missing (20_memory.md R81, 44_execute_image.md R225). -/
structure ByteInv (s : State) : Prop where
  control : ControlInv s
  bodies : s.phase = .exBody → s.items.toNat ≤ s.data.bodyCount.toNat
  hands : s.phase = .exHand → s.items.toNat ≤ s.data.handCount.toNat
  inFlight : s.phase ≠ .idle → (readIn s.trace).length = consumedInPhase s
  atEnd : s.res.valid = true →
    (consumedAtEnd s).1 ≤ (readIn s.trace).length ∧ (readIn s.trace).length ≤ (consumedAtEnd s).2
  /-- until the stream every read was whole -/
  whole : s.phase ≠ .idle → s.phase ≠ .imgStream → ∀ n bs, Event.read n bs ∈ s.trace → bs.length = n
  /-- `ERR_SHORT_READ`: the header and every completed read, then the bytes of the one short read (R252, code 5) -/
  short : s.res.valid = true → s.res.code = .shortRead → ∃ before n bs, s.trace = before ++ [.read n bs] ∧
    bs.length < n ∧ ∀ m cs, Event.read m cs ∈ before → cs.length = m
  /-- nothing reaches the sink before the stream -/
  noSink : s.phase ≠ .idle → s.phase ≠ .imgStream → sinkOf s.trace = []
  /-- in the stream and after its end the sink is the tail of what was read, and the count adds up -/
  image : s.res.imgPresent = true → (s.phase = .imgStream ∨ s.res.valid = true ∧ s.res.code = .ok) →
    sinkOf s.trace = (readIn s.trace).drop (execPrefixLen s + imgDimLen) ∧
    (sinkOf s.trace).length + s.data.imgRem.toNat = s.data.imgW.toNat * s.data.imgH.toNat

/-! ### The order of requests (20_memory.md R61, R78) -/

/-- The frame goes out first and once, and nothing is read before a poll that found bytes. -/
structure OrderInv (s : State) : Prop where
  /-- nothing has been asked of anyone before the frame goes out -/
  unsent : s.phase = .send → s.trace = []
  /-- the first request of a command is its one `TWrite` (R61) -/
  sendFirst : s.trace = [] ∨ ∃ frame count rest, s.trace = .wrote frame count :: rest ∧ writesIn rest = 0
  sent : s.phase ≠ .idle → s.phase ≠ .send → s.trace ≠ []
  /-- nothing has been read before the header is -/
  unread : s.phase = .send ∨ s.phase = .wait ∨ s.phase = .header → ∀ n bs, Event.read n bs ∉ s.trace
  /-- `HEADER` and the decoders come after a poll that found bytes -/
  ready : s.phase = .header ∨ s.phase.decoding = true → ∃ a, 0 < a ∧ Event.polled a ∈ s.trace
  /-- every `TRead` comes after a `TAvail` that answered more than 0 (R78) -/
  pollFirst : ∀ before n bs after, s.trace = before ++ .read n bs :: after →
    ∃ a, 0 < a ∧ Event.polled a ∈ before

/-! ### A command and its surroundings -/

/-- What no command touches: the configuration (41_poll.md R147), the host's other offers, the parameters (00_scope.md
R7) and the moves to come. -/
structure HostKept (s t : State) : Prop where
  cfg : t.cfg = s.cfg
  cfgSel : t.cfgSel = s.cfgSel
  offers : t.offers = s.offers
  params : t.params = s.params
  agenda : t.agenda = s.agenda

/-- A host that may present a command and see it start: the unit is in IDLE with no command on the port and no yield
outstanding (42_executor.md R157), and the three configuration registers were written (70_reset_and_hazards.md R283). -/
structure HostReady (s : State) : Prop where
  idle : s.phase = .idle
  free : s.offers = []
  awake : s.yld.req = false
  configured : s.cfg.maxWaitPollsWritten = true ∧ s.cfg.pollIntervalMsWritten = true ∧
    s.cfg.imgRetryCeilWritten = true

/-- The transport of 95_test_vectors.md, a plain queue (92_eei_decisions.md D33), for the next `n` requests and more:
nothing further arrives, and every request is answered with all the queue has. -/
structure PlainQueue (n : Nat) (s : State) : Prop where
  enough : n ≤ s.link.answers.length
  whole : ∀ a ∈ s.link.answers, a.arrived = [] ∧ s.link.inbound.length ≤ a.count ∧ 32 ≤ a.count

/-- A command's registers after the accept step latched a command of the opcode table (42_executor.md R158); payload bytes
from `len` on are left open (10_state.md R27). -/
structure Latched (k : CommandKind) (len : Word16) (payload : List Byte) (imgreq : Bool) (s t : State) : Prop where
  opcodeHeld : t.cmd.opcode = opcodeOf s.params k
  lenHeld : t.cmd.len = len
  payloadHeld : t.cmd.payload.toList.take len.toNat = payload
  decHeld : t.cmd.dec = boundDecoder k
  imgreqHeld : t.cmd.imgreq = imgreq
  shadowHeld : t.shadow = heldConfig s.cfg

end Sys2Proof.Machine
end

