-- ==== Sys2Proof/Certificates/Slice0/Obligations.lean ====
section
/-!
DEFINITION. The statements for the provers. A statement marked derived in OBLIGATIONS.json rests in part on the model's own
conventions and its docstring names the log entry; a stated one formalises the numbered rules it cites.
-/

open Sys2Proof Sys2Proof.Machine

/-! ### Encoding -/

/-- Decoding the word of a well-formed instruction gives the instruction back, for every choice of the open parameters
(30_encoding.md R90, R91, R97, R105; 10_state.md R24, R40). That side signals stand beside the bytes is log entry 20.
-/
def Obligations.DecodeEncodeRoundTrip : Prop :=
  ∀ (p : Params) (i : Instr), p.WellFormed → i.WellFormed → decode p (encode p i) = .ok i

/-- A word has one meaning: encoding what it decodes to gives the word back, and what it decodes to is well-formed.
That side signals stand beside the bytes is log entry 20. -/
def Obligations.EncodeDecodeRoundTrip : Prop :=
  ∀ (p : Params) (w : PortWord) (i : Instr), decode p w = .ok i → encode p i = w ∧ i.WellFormed

/-- Words written out from the encoding tables decode to the rows they stand for. The command frames use P_REF (log
entry 2); the others use only numbers the spec's tables print. -/
def Obligations.SpecWordsDecode : Prop :=
  decode Params.ref ⟨.cmdFrame, [0xFE, 0x00, 0x00, 0x00], 0⟩ = .ok (.getVersion 0 []) ∧
  decode Params.ref ⟨.cmdFrame, [0xFE, 0x01, 0x01, 0x00, 0x5A], 0⟩ = .ok (.setCameraAngle 1 [0x5A]) ∧
  decode Params.ref ⟨.cmdFrame, [0xFE, 0x04, 0x03, 0x00, 0x05, 0x00, 0x00], 1⟩ =
    .ok (.execute 3 [0x05, 0x00, 0x00] true) ∧
  decode Params.ref ⟨.cmdFrame, [0xFE, 0x09, 0x02, 0x00, 0x00, 0x01], 0⟩ = .ok (.setFaceAngle 2 [0x00, 0x01]) ∧
  decode Params.ref ⟨.respHeader, [0xFE, 0x00, 0x04, 0x2C, 0x01, 0x00], 0⟩ = .ok (.responseHeader 0xFE 0x00 76804) ∧
  decode Params.ref ⟨.cmdDec, [0b110], 0⟩ = .ok .decExec ∧
  decode Params.ref ⟨.cmdDec, [0b111], 0⟩ = .ok .decReserved ∧
  decode Params.ref ⟨.phase, [0b0011], 0⟩ = .ok .stepHeader ∧
  decode Params.ref ⟨.phase, [0b1001], 0⟩ = .ok .stepImgStream ∧
  decode Params.ref ⟨.cfgSel, [0b10], 0xFFFFFFFF⟩ = .ok (.cfgWriteImgRetryCeil 0xFFFFFFFF)

/-- Words outside the tables are rejected by name: an opcode that is none of the ten (30_encoding.md R106, presented
raw instead), a first byte that is not `SYNC` (R90), a phase code from 10 to 15 (10_state.md R40), a response header
that is not six bytes (R91). The names, and rejection itself, are log entry 25. -/
def Obligations.ForeignWordsRejected : Prop :=
  ∀ (p : Params) (sync op lsb msb : Byte) (payload bytes : List Byte) (side : Word32) (code : Byte),
    (op ∉ p.opcodes → decode p ⟨.cmdFrame, p.sync :: op :: lsb :: msb :: payload, side⟩ = .error (.unknownOpcode op)) ∧
    (sync ≠ p.sync → decode p ⟨.cmdFrame, sync :: op :: lsb :: msb :: payload, side⟩ = .error .badSync) ∧
    (10 ≤ code.toNat → code.toNat < 16 → decode p ⟨.phase, [code], 0⟩ = .error .reservedPhase) ∧
    (bytes.length < 6 → decode p ⟨.respHeader, bytes, 0⟩ = .error .truncated) ∧
    (6 < bytes.length → decode p ⟨.respHeader, bytes, 0⟩ = .error .trailingBytes)

/-! ### The codec (40_codec.md) -/

/-- The numeric primitives, as the natural numbers their rules give: `b2i` (R122), `le32` (R124) with `b2i` as its low
half, and `mul16`, exact (R125). -/
def Obligations.NumericPrimitives : Prop :=
  (∀ lsb msb : Byte, (b2i lsb msb).toNat = lsb.toNat + msb.toNat * 2 ^ 8) ∧
  (∀ b0 b1 b2 b3 : Byte,
    (le32 b0 b1 b2 b3).toNat = b0.toNat + b1.toNat * 2 ^ 8 + b2.toNat * 2 ^ 16 + b3.toNat * 2 ^ 24) ∧
  (∀ l m : Byte, (le32 l m 0 0).toNat = (b2i l m).toNat) ∧
  (∀ w h : Word16, (mul16 w h).toNat = w.toNat * h.toNat)

/-- `int_into_lsb_msb` is the low byte and the high byte, and the exact inverse of `b2i` both ways (R123). Its operand
is a 16-bit word, so the case outside 0 to 65535, which the rule leaves undefined, does not arise. -/
def Obligations.LengthSplitInverse : Prop :=
  (∀ v : Word16, (intIntoLsbMsb v).1.toNat = v.toNat % 256 ∧ (intIntoLsbMsb v).2.toNat = v.toNat / 256 ∧
    b2i (intIntoLsbMsb v).1 (intIntoLsbMsb v).2 = v) ∧
  (∀ l m : Byte, intIntoLsbMsb (b2i l m) = (l, m))

/-- `encode(opcode, payload)` (R126): an error exactly above 28 bytes; else sync, opcode, the length low byte first,
and the payload unchanged. -/
def Obligations.FrameEncoding : Prop :=
  ∀ (sync opcode : Byte) (payload : List Byte),
    (encodeFrame sync opcode payload = none ↔ 28 < payload.length) ∧
    (payload.length ≤ 28 →
      encodeFrame sync opcode payload = some ([sync, opcode, BitVec.ofNat 8 payload.length, 0] ++ payload))

/-- `decode_header` and `encode_header` are inverse both ways, on every header and on every six bytes (R127, R129,
R130). -/
def Obligations.HeaderRoundTrip : Prop :=
  (∀ (sync status : Byte) (length : Word32),
    encodeHeader sync status length =
      [sync, status, BitVec.ofNat 8 length.toNat, BitVec.ofNat 8 (length.toNat / 2 ^ 8),
       BitVec.ofNat 8 (length.toNat / 2 ^ 16), BitVec.ofNat 8 (length.toNat / 2 ^ 24)] ∧
    decodeHeader (encodeHeader sync status length) = some ⟨sync, status, length⟩) ∧
  (∀ b : List Byte, b.length = 6 →
    ∃ h, decodeHeader b = some h ∧ encodeHeader h.syncByte h.status h.payloadLength = b)

/-- `validate` (R128): a wrong sync byte first, then a nonzero status, whatever the length. -/
def Obligations.HeaderValidation : Prop :=
  ∀ (sync : Byte) (h : ResponseHeader),
    (h.syncByte ≠ sync → validate sync h = .badSync) ∧
    (h.syncByte = sync → h.status ≠ 0 → validate sync h = .deviceError h.status) ∧
    (h.syncByte = sync → h.status = 0 → validate sync h = .valid)

/-! ### Reset -/

/-- What reset leaves (10_state.md R52): `PHASE` is IDLE, `RES_VALID` and `STATUS.BUSY` are 0, the configuration
registers are not written, and until they are every command with a legal decoder code is refused. Nothing is said of the
registers the rule leaves unspecified. The written marks and the refusal's name are log entry 6. -/
def Obligations.ResetValues : Prop :=
  ∀ p : Params,
    (State.resetWith p).phase = .idle ∧ (State.resetWith p).res.valid = false ∧
    (State.resetWith p).status.getLsbD 0 = false ∧
    (State.resetWith p).cfg.maxWaitPollsWritten = false ∧
    (State.resetWith p).cfg.pollIntervalMsWritten = false ∧
    (State.resetWith p).cfg.imgRetryCeilWritten = false ∧
    ∀ c : Command, c.dec ≠ 7 →
      exec .stepIdle { State.resetWith p with offers := [c] } = .refused .configUnwritten

/-- `rst` in any state (70_reset_and_hazards.md R281, R282): the unit is in IDLE with no result and an unwritten
configuration, and the transport and the sink are as they were. That `rst` is a move on the agenda, and what it keeps
of the environment, is log entry 18; that a request still outstanding has moved nothing is log entries 10 and 34. -/
def Obligations.ResetMoveKeepsTransport : Prop :=
  ∀ (s : State) (rest : List Move), s.agenda = .rst :: rest →
    ∃ t, step s = .next t ∧ t.phase = .idle ∧ t.res.valid = false ∧ t.yld.req = false ∧
      t.cfg.maxWaitPollsWritten = false ∧ t.cfg.pollIntervalMsWritten = false ∧ t.cfg.imgRetryCeilWritten = false ∧
      t.link = s.link ∧ t.sink = s.sink ∧ t.sinkReady = s.sinkReady ∧ t.offers = s.offers ∧ t.params = s.params ∧
      t.agenda = rest

/-! ### The step -/

/-- A step runs the decoded instruction: a presented word is decoded with the machine's parameters and executed; with
no move left, or the unit's move next, the word is the code of `PHASE` and the step is that phase's; a word that
encodes nothing is a fault. The agenda is the model's own (log entries 1 and 25). -/
def Obligations.StepRunsDecodedInstruction : Prop :=
  (∀ (s : State) (w : PortWord) (rest : List Move) (i : Instr), s.agenda = .word w :: rest →
    decode s.params w = .ok i → step s = exec i { s with agenda := rest }) ∧
  (∀ (s : State) (w : PortWord) (rest : List Move) (e : DecodeError), s.agenda = .word w :: rest →
    decode s.params w = .error e → step s = .fault (.undecodable e)) ∧
  (∀ (s : State) (i : Instr), decode s.params (phaseWord s) = .ok i →
    (s.agenda = [] → step s = exec i s) ∧
    (∀ rest, s.agenda = .unit :: rest → step s = exec i { s with agenda := rest })) ∧
  (∀ (s : State), decode s.params (phaseWord s) = .ok
    (match s.phase with
      | .idle => .stepIdle | .send => .stepSend | .wait => .stepWait | .header => .stepHeader | .fixed => .stepFixed
      | .exSub => .stepExSub | .exBody => .stepExBody | .exHand => .stepExHand | .imgDim => .stepImgDim
      | .imgStream => .stepImgStream))

/-- The environment's moves do what 10_state.md R20, R26 and 20_memory.md R62, R66, R82 let the environment do, and nothing
else. That they are taken from a list in the state is log entry 1; that answers are data of the state is log entry 9, that the
sink's readiness is counted ahead in beats log entry 12, that a flush while busy is no move log entry 13, that the selector
stays as driven log entry 17, that a return is counted also while no yield is outstanding log entry 21, that offers wait in
the order the host raised them log entry 22. -/
def Obligations.EnvironmentMovesOnly : Prop :=
  ∀ (s : State) (rest : List Move),
    (∀ c, s.agenda = .offer c :: rest → step s = .next { s with agenda := rest, offers := s.offers ++ [c] }) ∧
    (∀ sel, s.agenda = .cfgRead sel :: rest → step s = .next { s with agenda := rest, cfgSel := sel }) ∧
    (∀ a, s.agenda = .answer a :: rest →
      step s = .next { s with agenda := rest, link.answers := s.link.answers ++ [a] }) ∧
    (s.agenda = .ack :: rest → step s = .next { s with agenda := rest, yld.acks := s.yld.acks + 1 }) ∧
    (∀ beats, s.agenda = .sinkReady beats :: rest →
      step s = .next { s with agenda := rest, sinkReady := s.sinkReady + beats }) ∧
    (∀ bytes, s.agenda = .deliver bytes :: rest →
      step s = .next { s with agenda := rest, link.inbound := s.link.inbound ++ bytes }) ∧
    (s.agenda = .flush :: rest →
      step s = .next { s with
        agenda := rest
        link.inbound := if s.phase = .idle then [] else s.link.inbound })

/-! ### The accept step -/

/-- The accept step of an admissible command (42_executor.md R158): the command and the shadows are latched, the flags
cleared, and `PHASE` is SEND. Payload bytes from `cmd_len` on are left open (log entry 7), and so is the shadow of a ceiling
the command does not need and the host has not written (log entry 6). The trace is log entry 24. -/
def Obligations.AcceptLatchesCommand : Prop :=
  ∀ (s : State) (c : Command) (rest : List Command) (d : Decoder), s.phase = .idle → s.offers = c :: rest →
    decoderOfCode c.dec = some d → configReady d c.imgreq s.cfg = true → c.len.toNat ≤ 28 →
    ∃ payload : Vector Byte 28,
      payload.toList.take c.len.toNat = c.payload.toList.take c.len.toNat ∧
      exec .stepIdle s = .next { s with
        offers := rest
        cmd := ⟨c.opcode, c.len, payload, d, c.imgreq⟩
        shadow := heldConfig s.cfg
        res := ⟨false, s.res.code, s.res.dataValid, s.res.devStatus, false, false, false⟩
        trace := []
        phase := .send
        freeIdx := s.freeIdx + 1 }

/-- A command longer than 28 bytes ends in the accept step, before any I/O (30_encoding.md R107; 42_executor.md R158).
The trace is log entry 24. -/
def Obligations.AcceptRejectsLongPayload : Prop :=
  ∀ (s : State) (c : Command) (rest : List Command) (d : Decoder), s.phase = .idle → s.offers = c :: rest →
    decoderOfCode c.dec = some d → configReady d c.imgreq s.cfg = true → 28 < c.len.toNat →
    ∃ t, exec .stepIdle s = .next t ∧ t.phase = .idle ∧ t.res.valid = true ∧ t.res.code = .payloadTooLarge ∧
      t.res.dataValid = false ∧ t.res.imgPresent = false ∧ t.res.imgIncomplete = false ∧ t.res.overBudget = false ∧
      t.trace = [] ∧ t.link = s.link ∧ t.sink = s.sink ∧ t.sinkReady = s.sinkReady ∧ t.yld = s.yld ∧
      t.offers = rest ∧
      t.cmd.opcode = c.opcode ∧ t.cmd.len = c.len ∧ t.cmd.dec = d ∧ t.cmd.imgreq = c.imgreq ∧
      t.cmd.payload.toList = c.payload.toList ∧
      t.shadow = heldConfig s.cfg ∧ t.cfg = s.cfg ∧
      t.hdr = s.hdr ∧ t.tick = s.tick ∧ t.retry = s.retry ∧ t.items = s.items

/-- Before the host has written the configuration a command is refused (42_executor.md R158; 70_reset_and_hazards.md
R283), the ceiling being asked for only by an execution with an image, the narrowing that rule allows (log entry 6). With
it written the command is accepted, and each shadow takes the value the host wrote (10_state.md R33). -/
def Obligations.AcceptNeedsConfiguration : Prop :=
  ∀ (s : State) (c : Command) (rest : List Command), s.phase = .idle → s.offers = c :: rest → c.dec ≠ 7 →
    (exec .stepIdle s = .refused .configUnwritten ↔
      s.cfg.maxWaitPollsWritten = false ∨ s.cfg.pollIntervalMsWritten = false ∨
        s.cfg.imgRetryCeilWritten = false ∧ c.dec = 6 ∧ c.imgreq = true) ∧
    (s.cfg.maxWaitPollsWritten = true → s.cfg.pollIntervalMsWritten = true →
      (s.cfg.imgRetryCeilWritten = true ∨ c.dec ≠ 6 ∨ c.imgreq = false) →
      ∃ t, exec .stepIdle s = .next t ∧ t.phase = (if c.len.toNat ≤ 28 then .send else .idle) ∧ t.cfg = s.cfg ∧
        t.shadow.maxWaitPolls = s.cfg.maxWaitPolls ∧ t.shadow.pollIntervalMs = s.cfg.pollIntervalMs ∧
        (s.cfg.imgRetryCeilWritten = true → t.shadow.imgRetryCeil = s.cfg.imgRetryCeil))

/-- `cmd_dec = 7` is refused, as a command and as the row of its own (30_encoding.md R110). -/
def Obligations.ReservedDecoderRefused : Prop :=
  (∀ s : State, exec .decReserved s = .refused .reservedDecoder) ∧
  (∀ (s : State) (c : Command) (rest : List Command), s.phase = .idle → s.offers = c :: rest → c.dec = 7 →
    exec .stepIdle s = .refused .reservedDecoder)

/-- `cmd_ready` is 1 exactly in IDLE, and an offered command waits, first come first, while a command is in flight:
the unit's run to the end of that command neither takes it nor drops it (42_executor.md R157). Running on is log entry
14. -/
def Obligations.OfferWaitsWhileBusy : Prop :=
  (∀ s : State, s.cmdReady = true ↔ s.phase = .idle) ∧
  (∀ (s t : State) (c : Command), runUntilIdle (offerCommand c s) = .next t →
    t.offers = s.offers ++ [c] ∧ (s.phase ≠ .idle → t.cmd = s.cmd))

/-! ### The steps that talk to the transport

In each, `u` is the state with the request answered: the bytes that arrived meanwhile joined the inbound stream, the
request's own bytes left or entered, and the trace has the request (20_memory.md R63 to R66; the answers are data of the
state, log entry 9). -/

/-- The `SEND` step (42_executor.md R161; the answers by log entry 9). -/
def Obligations.SendStep : Prop :=
  ∀ (s : State) (a : Answer) (rest : List Answer), s.phase = .send → s.link.answers = a :: rest →
    s.cmd.len.toNat ≤ 28 →
    let frame := [s.params.sync, s.cmd.opcode, s.cmd.len.setWidth 8, (s.cmd.len >>> 8).setWidth 8] ++
      s.cmd.payload.toList.take s.cmd.len.toNat
    let c := min a.count frame.length
    let u := { s with
      link := ⟨s.link.inbound ++ a.arrived, s.link.outbound ++ frame.take c, rest⟩
      trace := s.trace ++ [Event.wrote frame c] }
    encodeFrame s.params.sync s.cmd.opcode (s.cmd.payload.toList.take s.cmd.len.toNat) = some frame ∧
    frame.length = 4 + s.cmd.len.toNat ∧
    exec .stepSend s = .next
      (if c < 4 + s.cmd.len.toNat then finish .write u else { u with tick := 0, phase := .wait })

/-- The `WAIT` step (41_poll.md R142; the answers by log entry 9), resumed from its yield if one is outstanding
(10_state.md R26). `TICK` is below its bound, as 10_state.md R41 says it is there. That `yld_ms` keeps the last interval once
the yield has returned is log entry 29. -/
def Obligations.WaitStep : Prop :=
  ∀ (s : State) (a : Answer) (rest : List Answer), s.phase = .wait → s.link.answers = a :: rest →
    (s.yld.req = true → 0 < s.yld.acks) → s.tick.toNat < max s.shadow.maxWaitPolls.toNat 1 →
    let ready := min a.count (s.link.inbound ++ a.arrived).length
    let u := { s with
      yld := ⟨false, s.yld.ms, if s.yld.req then s.yld.acks - 1 else s.yld.acks⟩
      link := ⟨s.link.inbound ++ a.arrived, s.link.outbound, rest⟩
      trace := s.trace ++ [Event.polled ready] }
    (s.tick + 1).toNat = s.tick.toNat + 1 ∧
    exec .stepWait s = .next
      (if 0 < ready then { u with phase := .header }
       else if s.shadow.maxWaitPolls.toNat ≤ s.tick.toNat + 1 then finish .timeout { u with tick := s.tick + 1 }
       else { u with
        tick := s.tick + 1
        yld := ⟨true, s.shadow.pollIntervalMs, u.yld.acks⟩
        trace := u.trace ++ [Event.yielded s.shadow.pollIntervalMs] })

/-- The `HEADER` step with its dispatch (42_executor.md R164, R167; the answers by log entry 9). A short read leaves
`H_SYNC`, `H_STATUS`, `H_LEN` alone. -/
def Obligations.HeaderStep : Prop :=
  ∀ (s : State) (a : Answer) (rest : List Answer), s.phase = .header → s.link.answers = a :: rest →
    let pool := s.link.inbound ++ a.arrived
    let bs := pool.take (min a.count 6)
    let u := { s with
      link := ⟨pool.drop (min a.count 6), s.link.outbound, rest⟩
      trace := s.trace ++ [Event.read 6 bs] }
    (bs.length < 6 → exec .stepHeader s = .next (finish .shortHeader u)) ∧
    (∀ b0 b1 b2 b3 b4 b5, bs = [b0, b1, b2, b3, b4, b5] →
      let v := { u with hdr := ⟨b0, b1, le32 b2 b3 b4 b5⟩ }
      let w := { v with data.budgetLeft := le32 b2 b3 b4 b5 }
      exec .stepHeader s = .next
        (if b0 ≠ s.params.sync then finish .badSync v
         else if b1 ≠ 0 then finish .device v
         else match s.cmd.dec with
          | .none => finish .ok w
          | .exec => { w with phase := .exSub }
          | _ => { w with phase := .fixed }))

/-- The `FIXED` step (43_decoders.md R187): `SHAPE_LEN` bytes in one read, into `RB` in wire order; the entries above
are left open (log entry 7; the answers by log entry 9). -/
def Obligations.FixedStep : Prop :=
  ∀ (s : State) (a : Answer) (rest : List Answer), s.phase = .fixed → s.link.answers = a :: rest →
    s.cmd.dec ≠ .none → s.cmd.dec ≠ .exec →
    let n := shapeLen s.cmd.dec
    let pool := s.link.inbound ++ a.arrived
    let bs := pool.take (min a.count n)
    let u := { s with
      link := ⟨pool.drop (min a.count n), s.link.outbound, rest⟩
      trace := s.trace ++ [Event.read n bs] }
    (bs.length < n → exec .stepFixed s = .next (finish .shortRead u)) ∧
    (bs.length = n → ∃ rb : Vector Byte 19, rb.toList.take n = bs ∧
      exec .stepFixed s = .next (finish .ok { u with data.rb := rb, freeIdx := s.freeIdx + 1 }))

/-- The `EX_SUB` step (44_execute_image.md R216; the answers by log entry 9): the fourth byte is discarded. -/
def Obligations.ExSubStep : Prop :=
  ∀ (s : State) (a : Answer) (rest : List Answer), s.phase = .exSub → s.link.answers = a :: rest →
    let pool := s.link.inbound ++ a.arrived
    let bs := pool.take (min a.count 4)
    let u := { s with
      link := ⟨pool.drop (min a.count 4), s.link.outbound, rest⟩
      trace := s.trace ++ [Event.read 4 bs] }
    (bs.length < 4 → exec .stepExSub s = .next (finish .shortRead u)) ∧
    (∀ body hand face reserved, bs = [body, hand, face, reserved] →
      exec .stepExSub s = .next (consume 4 { u with
        data.bodyCount := body
        data.handCount := hand
        data.faceCount := face
        items := body
        phase := .exBody }))

/-- The `EX_BODY` step (44_execute_image.md R218; the answers by log entry 9). -/
def Obligations.ExBodyStep : Prop :=
  ∀ (s : State), s.phase = .exBody →
    (s.items = 0 ∨ s.params.bodyItemBytes = 0 →
      exec .stepExBody s = .next { s with items := s.data.handCount, phase := .exHand }) ∧
    (∀ (a : Answer) (rest : List Answer), s.link.answers = a :: rest → s.items ≠ 0 → s.params.bodyItemBytes ≠ 0 →
      let n := s.params.bodyItemBytes
      let pool := s.link.inbound ++ a.arrived
      let bs := pool.take (min a.count n)
      let u := { s with
        link := ⟨pool.drop (min a.count n), s.link.outbound, rest⟩
        trace := s.trace ++ [Event.read n bs] }
      exec .stepExBody s = .next
        (if bs.length < n then finish .shortRead u else consume n { u with items := s.items - 1 }))

/-- The `EX_HAND` step (44_execute_image.md R219; the answers by log entry 9). -/
def Obligations.ExHandStep : Prop :=
  ∀ (s : State), s.phase = .exHand →
    (s.items = 0 ∨ s.params.handItemBytes = 0 →
      exec .stepExHand s = .next (if s.cmd.imgreq then { s with phase := .imgDim } else finish .ok s)) ∧
    (∀ (a : Answer) (rest : List Answer), s.link.answers = a :: rest → s.items ≠ 0 → s.params.handItemBytes ≠ 0 →
      let n := s.params.handItemBytes
      let pool := s.link.inbound ++ a.arrived
      let bs := pool.take (min a.count n)
      let u := { s with
        link := ⟨pool.drop (min a.count n), s.link.outbound, rest⟩
        trace := s.trace ++ [Event.read n bs] }
      exec .stepExHand s = .next
        (if bs.length < n then finish .shortRead u else consume n { u with items := s.items - 1 }))

/-- The `IMG_DIM` step (44_execute_image.md R222; the answers by log entry 9): width first, and an empty image is done
at once. -/
def Obligations.ImgDimStep : Prop :=
  ∀ (s : State) (a : Answer) (rest : List Answer), s.phase = .imgDim → s.link.answers = a :: rest →
    let pool := s.link.inbound ++ a.arrived
    let bs := pool.take (min a.count 4)
    let u := { s with
      link := ⟨pool.drop (min a.count 4), s.link.outbound, rest⟩
      trace := s.trace ++ [Event.read 4 bs] }
    (bs.length < 4 → exec .stepImgDim s = .next (finish .shortRead u)) ∧
    (∀ w0 w1 h0 h1, bs = [w0, w1, h0, h1] →
      let v := consume 4 { u with
        data.imgW := b2i w0 w1
        data.imgH := b2i h0 h1
        data.imgRem := mul16 (b2i w0 w1) (b2i h0 h1)
        res.imgPresent := true }
      exec .stepImgDim s = .next
        (if (b2i w0 w1).toNat * (b2i h0 h1).toNat = 0 then finish .ok v
         else { v with retry := 0, phase := .imgStream }))

/-- The `IMG_STREAM` step (44_execute_image.md R224, with the chunk size of R223), where `RETRY` is within the ceiling
as 10_state.md R42 says it is there: a chunk waits for the sink (20_memory.md R67; log entry 12). That its requests are one
step, taken when both answers and the sink's readiness are there, is log entry 10; that `yld_ms` keeps the last interval once
the yield has returned is log entry 29. -/
def Obligations.ImgStreamStep : Prop :=
  ∀ (s : State) (a : Answer) (rest : List Answer), s.phase = .imgStream → s.link.answers = a :: rest →
    (s.yld.req = true → 0 < s.yld.acks) → s.retry.toNat ≤ s.shadow.imgRetryCeil.toNat →
    let pool := s.link.inbound ++ a.arrived
    let ready := min a.count pool.length
    let u := { s with
      yld := ⟨false, s.yld.ms, if s.yld.req then s.yld.acks - 1 else s.yld.acks⟩
      link := ⟨pool, s.link.outbound, rest⟩
      trace := s.trace ++ [Event.polled ready] }
    let miss := fun v : State =>
      if s.shadow.imgRetryCeil.toNat < s.retry.toNat + 1 then
        finish .ok { v with retry := s.retry + 1, res.imgIncomplete := true }
      else { v with
        retry := s.retry + 1
        yld := ⟨true, s.shadow.pollIntervalMs, v.yld.acks⟩
        trace := v.trace ++ [Event.yielded s.shadow.pollIntervalMs] }
    (s.retry + 1).toNat = s.retry.toNat + 1 ∧
    (ready = 0 → exec .stepImgStream s = .next (miss u)) ∧
    (∀ (b : Answer) (rest' : List Answer), 0 < ready → rest = b :: rest' →
      let n := min s.params.chunkMax (min s.data.imgRem.toNat ready)
      let bs := (pool ++ b.arrived).take (min b.count n)
      let v := { u with
        link := ⟨(pool ++ b.arrived).drop (min b.count n), s.link.outbound, rest'⟩
        trace := u.trace ++ [Event.read n bs] }
      let w := consume bs.length { v with
        sink := s.sink ++ bs
        sinkReady := s.sinkReady - bs.length
        trace := v.trace ++ [Event.sank bs]
        data.imgRem := s.data.imgRem - BitVec.ofNat 32 bs.length
        retry := if s.params.imgRetryResetOnData then 0 else s.retry }
      exec .stepImgStream s = .next
        (if bs = [] then miss v
         else if s.sinkReady < bs.length then s
         else if s.data.imgRem.toNat = bs.length then finish .ok w
         else w))

/-! ### The shared operations -/

/-- `finish(code)` (42_executor.md R160): the result is posted, the unit is in IDLE, and nothing else changes but
values that 10_state.md R36 and R37 leave open. -/
def Obligations.FinishPostsResult : Prop :=
  ∀ (code : ResCode) (s : State),
    let t := finish code s
    t.res.code = code ∧ (t.res.dataValid = true ↔ code = .ok ∧ s.cmd.dec ≠ .none) ∧
    (code = .device → t.res.devStatus = s.hdr.status) ∧ t.res.valid = true ∧ t.phase = .idle ∧
    (t.res.dataValid = true → t.data = s.data) ∧
    t.res.imgPresent = s.res.imgPresent ∧ t.res.imgIncomplete = s.res.imgIncomplete ∧
    t.res.overBudget = s.res.overBudget ∧
    t.cmd = s.cmd ∧ t.hdr = s.hdr ∧ t.cfg = s.cfg ∧ t.cfgSel = s.cfgSel ∧ t.shadow = s.shadow ∧ t.tick = s.tick ∧
    t.retry = s.retry ∧ t.items = s.items ∧ t.offers = s.offers ∧ t.link = s.link ∧ t.sink = s.sink ∧
    t.sinkReady = s.sinkReady ∧ t.yld = s.yld ∧ t.params = s.params ∧ t.agenda = s.agenda ∧ t.trace = s.trace

/-- `consume(k)` (44_execute_image.md R230): the budget counts down in whole numbers, saturates at 0 and says so;
nothing else changes. -/
def Obligations.ConsumeKeepsBudget : Prop :=
  ∀ (k : Nat) (s : State),
    (consume k s).data.budgetLeft.toNat = s.data.budgetLeft.toNat - k ∧
    ((consume k s).res.overBudget = true ↔ s.res.overBudget = true ∨ s.data.budgetLeft.toNat < k) ∧
    consume k s = { s with
      data.budgetLeft := (consume k s).data.budgetLeft
      res.overBudget := (consume k s).res.overBudget }

/-- `STATUS` (10_state.md R34): bit 0 is `BUSY`, bits [4:1] are `PHASE` by the codes of R40, the other bits read 0. -/
def Obligations.StatusRegister : Prop :=
  ∀ s : State,
    s.status.getLsbD 0 = (s.phase != .idle) ∧
    (s.status.extractLsb' 1 4).toNat =
      (match s.phase with
        | .idle => 0 | .send => 1 | .wait => 2 | .header => 3 | .fixed => 4
        | .exSub => 5 | .exBody => 6 | .exHand => 7 | .imgDim => 8 | .imgStream => 9) ∧
    ∀ i, 5 ≤ i → s.status.getLsbD i = false

/-! ### The configuration channel -/

/-- A configuration write gives the selected register its value, in every phase, and touches nothing else: the shadows
and with them the command in flight (41_poll.md R147; 10_state.md R24, R33). That the selector stays as driven is log
entry 17; the mark of a written register is what 70_reset_and_hazards.md R283 needs. The mark is log entry 6. -/
def Obligations.ConfigurationWrites : Prop :=
  ∀ (s : State) (v : Word32),
    exec (.cfgWriteMaxWaitPolls v) s =
      .next { s with cfgSel := 0, cfg.maxWaitPolls := v, cfg.maxWaitPollsWritten := true } ∧
    exec (.cfgWritePollIntervalMs v) s =
      .next { s with cfgSel := 1, cfg.pollIntervalMs := v, cfg.pollIntervalMsWritten := true } ∧
    exec (.cfgWriteImgRetryCeil v) s =
      .next { s with cfgSel := 2, cfg.imgRetryCeil := v, cfg.imgRetryCeilWritten := true }

/-- The reserved selector: a write changes no register, and a read returns 0 (10_state.md R24). That the selector
stays as driven is log entry 17. -/
def Obligations.ReservedSelectorInert : Prop :=
  ∀ (s : State) (v : Word32), exec (.cfgSelReserved v) s = .next { s with cfgSel := 3 } ∧
    ∀ t, exec (.cfgSelReserved v) s = .next t → t.cfgRdata = 0

/-- A configuration read shows the register last written, not the shadow, in every phase and after any run of the unit
(41_poll.md R148). Running on is log entry 14; that the selector stays as driven is log entry 17. -/
def Obligations.ConfigurationReadBack : Prop :=
  ∀ (s t u : State) (v : Word32),
    (exec (.cfgWriteMaxWaitPolls v) s = .next t ∨ exec (.cfgWritePollIntervalMs v) s = .next t ∨
      exec (.cfgWriteImgRetryCeil v) s = .next t) →
    runUntilWaits t = .next u → t.cfgRdata = v ∧ u.cfgRdata = v

/-! ### The response header -/

/-- The `RESPONSE_HEADER` row (30_encoding.md R91; 42_executor.md R164; log entry 16). In HEADER the first six bytes of
the stream the row's bytes have joined are the unit's header, stale bytes first (70_reset_and_hazards.md R290) and on an
empty stream the row's own: a wrong sync byte and a nonzero status end the command, else the decoder is entered. In any
other phase they join the tail of the inbound stream and nothing else changes. -/
def Obligations.ResponseHeaderArrives : Prop :=
  ∀ (s : State) (sync status : Byte) (length : Word32),
    let pool := s.link.inbound ++ encodeHeader sync status length
    (s.phase ≠ .header →
      exec (.responseHeader sync status length) s = .next { s with link.inbound := pool }) ∧
    (s.phase = .header → ∀ b0 b1 b2 b3 b4 b5, pool.take 6 = [b0, b1, b2, b3, b4, b5] →
      let v := { s with
        hdr := ⟨b0, b1, le32 b2 b3 b4 b5⟩
        link.inbound := pool.drop 6
        trace := s.trace ++ [Event.read 6 [b0, b1, b2, b3, b4, b5]] }
      let w := { v with data.budgetLeft := le32 b2 b3 b4 b5 }
      exec (.responseHeader sync status length) s = .next
        (if b0 ≠ s.params.sync then finish .badSync v
         else if b1 ≠ 0 then finish .device v
         else match s.cmd.dec with
          | .none => finish .ok w
          | .exec => { w with phase := .exSub }
          | _ => { w with phase := .fixed })) ∧
    (s.phase = .header → s.link.inbound = [] →
      let v := { s with
        hdr := ⟨sync, status, length⟩
        trace := s.trace ++ [Event.read 6 (encodeHeader sync status length)] }
      let w := { v with data.budgetLeft := length }
      exec (.responseHeader sync status length) s = .next
        (if sync ≠ s.params.sync then finish .badSync v
         else if status ≠ 0 then finish .device v
         else match s.cmd.dec with
          | .none => finish .ok w
          | .exec => { w with phase := .exSub }
          | _ => { w with phase := .fixed }))

/-! ### The decoders' own rows (log entry 15: a decoder is invoked as dispatch invokes it, and run to its end) -/

/-- `DEC_NONE` (43_decoders.md R195): consumes nothing; the result is `OK` with no data. The decoder rows as invocations,
and that nothing happens where `C_DEC` holds another code, are log entry 15. -/
def Obligations.DecoderNoneCompletes : Prop :=
  ∀ s : State,
    (s.cmd.dec = .none → exec .decNone s = .next (finish .ok { s with data.budgetLeft := s.hdr.len })) ∧
    (s.cmd.dec ≠ .none → exec .decNone s = .next s)

/-- The five fixed-shape decoders (43_decoders.md R186, R187): with their bytes there they end `OK` with `RB` holding
them; with fewer they end with `ERR_SHORT_READ`. The decoder rows as invocations, and that nothing happens where `C_DEC`
holds another code, are log entry 15; the answers log entry 9. -/
def Obligations.FixedDecodersComplete : Prop :=
  ∀ (s : State) (i : Instr) (d : Decoder) (n : Nat),
    (i, d, n) ∈ [(.decVersion, .version, 19), (.decCameraAngle, .cameraAngle, 1), (.decThreshold, .threshold, 8),
      (.decDetsize, .detsize, 12), (.decFaceAngle, .faceAngle, 2)] →
    (s.cmd.dec ≠ d → exec i s = .next s) ∧
    (s.cmd.dec = d → ∀ (a : Answer) (rest : List Answer), s.link.answers = a :: rest →
      let pool := s.link.inbound ++ a.arrived
      let bs := pool.take (min a.count n)
      let u := { s with
        data.budgetLeft := s.hdr.len
        link := ⟨pool.drop (min a.count n), s.link.outbound, rest⟩
        trace := s.trace ++ [Event.read n bs] }
      (bs.length = n → ∃ rb : Vector Byte 19, rb.toList.take n = bs ∧
        exec i s = .next (finish .ok { u with data.rb := rb, freeIdx := s.freeIdx + 1 })) ∧
      (bs.length < n → exec i s = .next (finish .shortRead u)))

/-- `DEC_EXEC` without an image (44_execute_image.md R215 to R219), over a transport that has the sub-header and the
blocks: the counts are in their registers, every block byte is consumed, and the rest of the stream and the sink are
untouched, as are the registers listed; it says nothing of `ITEMS`, which the blocks count down, or of `RES_DEV_STATUS`. The
decoder rows as invocations, and that nothing happens where `C_DEC` holds another code, are log entry 15; the flags an
earlier command left are log entry 33. -/
def Obligations.ExecDecoderCompletes : Prop :=
  (∀ s : State, s.cmd.dec ≠ .exec → exec .decExec s = .next s) ∧
  ∀ (s : State) (body hand face reserved : Byte) (bodies hands rest : List Byte),
    s.cmd.dec = .exec → s.cmd.imgreq = false → PlainQueue (1 + body.toNat + hand.toNat) s →
    bodies.length = body.toNat * s.params.bodyItemBytes → hands.length = hand.toNat * s.params.handItemBytes →
    s.link.inbound = [body, hand, face, reserved] ++ bodies ++ hands ++ rest →
    ∃ t, exec .decExec s = .next t ∧ t.phase = .idle ∧ t.res.valid = true ∧ t.res.code = .ok ∧
      t.res.dataValid = true ∧ t.res.imgPresent = s.res.imgPresent ∧ t.res.imgIncomplete = s.res.imgIncomplete ∧
      t.data.bodyCount = body ∧ t.data.handCount = hand ∧ t.data.faceCount = face ∧
      t.data.budgetLeft.toNat = s.hdr.len.toNat - (4 + bodies.length + hands.length) ∧
      (t.res.overBudget = true ↔ s.res.overBudget = true ∨ s.hdr.len.toNat < 4 + bodies.length + hands.length) ∧
      t.data.rb = s.data.rb ∧ t.data.imgW = s.data.imgW ∧ t.data.imgH = s.data.imgH ∧ t.data.imgRem = s.data.imgRem ∧
      t.link.inbound = rest ∧ t.link.outbound = s.link.outbound ∧ t.sink = s.sink ∧ t.sinkReady = s.sinkReady ∧
      t.yld = s.yld ∧ t.cmd = s.cmd ∧
      t.hdr = s.hdr ∧ t.shadow = s.shadow ∧ t.tick = s.tick ∧ t.retry = s.retry ∧ HostKept s t

/-- `DEC_EXEC` with an image (44_execute_image.md R220 to R225), over a transport that has the sub-header, the blocks, the
dimensions and the whole image, and a sink ready for it (log entry 12): the sink receives the image in order and nothing
else, `IMG_REM` ends at 0, and the rest of the stream is untouched. The decoder rows as invocations are log entry 15;
`RES_IMG_INCOMPLETE`, which no accept cleared before the row, stays as it was, log entry 33. -/
def Obligations.ExecDecoderWithImage : Prop :=
  ∀ (s : State) (body hand face reserved w0 w1 h0 h1 : Byte) (bodies hands image rest : List Byte),
    s.cmd.dec = .exec → s.cmd.imgreq = true → s.yld.req = false → 1 ≤ s.params.chunkMax →
    PlainQueue (2 + body.toNat + hand.toNat + 2 * image.length) s → image.length ≤ s.sinkReady →
    bodies.length = body.toNat * s.params.bodyItemBytes → hands.length = hand.toNat * s.params.handItemBytes →
    image.length = (b2i w0 w1).toNat * (b2i h0 h1).toNat →
    s.link.inbound =
      [body, hand, face, reserved] ++ bodies ++ hands ++ [w0, w1, h0, h1] ++ image ++ rest →
    ∃ t, exec .decExec s = .next t ∧ t.phase = .idle ∧ t.res.valid = true ∧ t.res.code = .ok ∧
      t.res.dataValid = true ∧ t.res.imgPresent = true ∧ t.res.imgIncomplete = s.res.imgIncomplete ∧
      t.data.bodyCount = body ∧ t.data.handCount = hand ∧ t.data.faceCount = face ∧ t.data.rb = s.data.rb ∧
      t.data.imgW = b2i w0 w1 ∧ t.data.imgH = b2i h0 h1 ∧ t.data.imgRem = 0 ∧
      t.data.budgetLeft.toNat = s.hdr.len.toNat - (8 + bodies.length + hands.length + image.length) ∧
      (t.res.overBudget = true ↔
        s.res.overBudget = true ∨ s.hdr.len.toNat < 8 + bodies.length + hands.length + image.length) ∧
      t.link.inbound = rest ∧ t.link.outbound = s.link.outbound ∧ t.sink = s.sink ++ image ∧
      t.sinkReady = s.sinkReady - image.length ∧ t.yld = s.yld ∧ t.cmd = s.cmd ∧ t.hdr = s.hdr ∧
      t.shadow = s.shadow ∧ t.tick = s.tick ∧ HostKept s t

/-! ### The commands -/

/-- The four set commands complete (43_decoders.md R195, R197, R199, R201, R203): over a transport that has a valid
header, the frame goes out whole, six bytes come in, the result is `OK` without data, and a payload the device may
have sent stays in the transport. That a command instruction runs through is log entry 14. -/
def Obligations.SetCommandsComplete : Prop :=
  ∀ (s : State) (k : CommandKind) (len : Word16) (payload : List Byte) (imgreq : Bool) (length : Word32)
    (rest : List Byte),
    k ∈ [CommandKind.setCameraAngle, .setThreshold, .setDetectionSize, .setFaceAngle] →
    HostReady s → PlainQueue 3 s → len.toNat ≤ 28 → payload.length = len.toNat →
    s.link.inbound = encodeHeader s.params.sync 0 length ++ rest →
    ∃ t, exec (k.instr len payload imgreq) s = .next t ∧ t.phase = .idle ∧ t.res.valid = true ∧ t.res.code = .ok ∧
      t.res.dataValid = false ∧ t.res.imgPresent = false ∧ t.res.imgIncomplete = false ∧ t.res.overBudget = false ∧
      Latched k len payload false s t ∧ t.hdr = ⟨s.params.sync, 0, length⟩ ∧ t.tick = 0 ∧
      t.link = ⟨rest, s.link.outbound ++ frameBytes s.params.sync (opcodeOf s.params k) len payload,
        s.link.answers.drop 3⟩ ∧
      t.sink = s.sink ∧ t.sinkReady = s.sinkReady ∧ t.yld = s.yld ∧ t.retry = s.retry ∧
      t.items = s.items ∧ HostKept s t

/-- The five get commands complete, and the typed result's fields are the bytes the device sent, every 16-bit field
`lsb + (msb << 8)` (43_decoders.md R188, R190 to R194). The header's length field is not looked at (30_encoding.md
R111). It says nothing of `X_*`, the image registers, `BUDGET_LEFT` and `RES_DEV_STATUS`. That a command instruction runs
through is log entry 14. -/
def Obligations.GetCommandsReturnFields : Prop :=
  ∀ (s : State) (k : CommandKind) (len : Word16) (payload : List Byte) (imgreq : Bool) (length : Word32)
    (bytes rest : List Byte) (typed : TypedResponse),
    (k = .getVersion ∧ (∃ model major minor release revision, model.length = 12 ∧ revision.length = 4 ∧
        bytes = model ++ [major, minor, release] ++ revision ∧
        typed = .version ⟨model, major, minor, release, revision⟩) ∨
     k = .getCameraAngle ∧ (∃ angle, bytes = [angle] ∧ typed = .cameraAngle angle) ∨
     k = .getThreshold ∧ (∃ b0 b1 h0 h1 f0 f1 r0 r1, bytes = [b0, b1, h0, h1, f0, f1, r0, r1] ∧
        typed = .threshold ⟨b2i b0 b1, b2i h0 h1, b2i f0 f1, b2i r0 r1⟩) ∨
     k = .getDetectionSize ∧ (∃ b0 b1 b2 b3 h0 h1 h2 h3 f0 f1 f2 f3,
        bytes = [b0, b1, b2, b3, h0, h1, h2, h3, f0, f1, f2, f3] ∧
        typed = .detectionSize ⟨b2i b0 b1, b2i b2 b3, b2i h0 h1, b2i h2 h3, b2i f0 f1, b2i f2 f3⟩) ∨
     k = .getFaceAngle ∧ (∃ yaw roll, bytes = [yaw, roll] ∧ typed = .faceAngle yaw roll)) →
    HostReady s → PlainQueue 4 s → len.toNat ≤ 28 → payload.length = len.toNat →
    s.link.inbound = encodeHeader s.params.sync 0 length ++ bytes ++ rest →
    ∃ t, exec (k.instr len payload imgreq) s = .next t ∧ t.phase = .idle ∧ t.res.valid = true ∧ t.res.code = .ok ∧
      t.typedResult = some typed ∧ t.res.dataValid = true ∧ t.res.imgPresent = false ∧ t.res.imgIncomplete = false ∧
      t.res.overBudget = false ∧ t.data.rb.toList.take bytes.length = bytes ∧
      Latched k len payload false s t ∧ t.hdr = ⟨s.params.sync, 0, length⟩ ∧ t.tick = 0 ∧
      t.link = ⟨rest, s.link.outbound ++ frameBytes s.params.sync (opcodeOf s.params k) len payload,
        s.link.answers.drop 4⟩ ∧
      t.sink = s.sink ∧ t.sinkReady = s.sinkReady ∧ t.yld = s.yld ∧ t.retry = s.retry ∧
      t.items = s.items ∧ HostKept s t

/-- `EXECUTE` without an image completes (44_execute_image.md R215 to R220): the counts are returned, the blocks are
consumed and discarded, and the drain is never entered, whatever more the header declared. That a command instruction
runs through is log entry 14. -/
def Obligations.ExecuteWithoutImage : Prop :=
  ∀ (s : State) (len : Word16) (payload : List Byte) (length : Word32) (body hand face reserved : Byte)
    (bodies hands rest : List Byte),
    HostReady s → PlainQueue (4 + body.toNat + hand.toNat) s → len.toNat ≤ 28 → payload.length = len.toNat →
    bodies.length = body.toNat * s.params.bodyItemBytes → hands.length = hand.toNat * s.params.handItemBytes →
    s.link.inbound =
      encodeHeader s.params.sync 0 length ++ [body, hand, face, reserved] ++ bodies ++ hands ++ rest →
    ∃ t, exec (.execute len payload false) s = .next t ∧ t.phase = .idle ∧ t.res.valid = true ∧ t.res.code = .ok ∧
      t.typedResult = some (.execution ⟨body, hand, face, none⟩) ∧ t.res.imgPresent = false ∧
      t.res.imgIncomplete = false ∧
      t.data.budgetLeft.toNat = length.toNat - (4 + bodies.length + hands.length) ∧
      (t.res.overBudget = true ↔ length.toNat < 4 + bodies.length + hands.length) ∧
      Latched .execute len payload false s t ∧ t.hdr = ⟨s.params.sync, 0, length⟩ ∧ t.tick = 0 ∧
      t.link.inbound = rest ∧
      t.link.outbound = s.link.outbound ++ frameBytes s.params.sync s.params.opExecute len payload ∧
      t.sink = s.sink ∧ t.sinkReady = s.sinkReady ∧ t.yld = s.yld ∧ t.retry = s.retry ∧ HostKept s t

/-- `EXECUTE` with an image that arrives whole and a sink ready for it completes (44_execute_image.md R215 to R228): the
sink receives the `width * height` bytes in order and nothing else, the drain ends in Done, and the rest of the stream is
untouched. That a command instruction runs through is log entry 14; the sink's readiness counted in beats is log entry
12. -/
def Obligations.ExecuteWithImage : Prop :=
  ∀ (s : State) (len : Word16) (payload : List Byte) (length : Word32) (body hand face reserved w0 w1 h0 h1 : Byte)
    (bodies hands image rest : List Byte),
    HostReady s → PlainQueue (5 + body.toNat + hand.toNat + 2 * image.length) s → image.length ≤ s.sinkReady →
    1 ≤ s.params.chunkMax → len.toNat ≤ 28 → payload.length = len.toNat →
    bodies.length = body.toNat * s.params.bodyItemBytes → hands.length = hand.toNat * s.params.handItemBytes →
    image.length = (b2i w0 w1).toNat * (b2i h0 h1).toNat →
    s.link.inbound =
      encodeHeader s.params.sync 0 length ++ [body, hand, face, reserved] ++ bodies ++ hands ++ [w0, w1, h0, h1] ++
        image ++ rest →
    ∃ t, exec (.execute len payload true) s = .next t ∧ t.phase = .idle ∧ t.res.valid = true ∧ t.res.code = .ok ∧
      t.typedResult =
        some (.execution ⟨body, hand, face, some ⟨b2i w0 w1, b2i h0 h1, image, true⟩⟩) ∧
      t.res.imgPresent = true ∧ t.res.imgIncomplete = false ∧ t.data.imgRem = 0 ∧
      t.data.budgetLeft.toNat = length.toNat - (8 + bodies.length + hands.length + image.length) ∧
      (t.res.overBudget = true ↔ length.toNat < 8 + bodies.length + hands.length + image.length) ∧
      Latched .execute len payload true s t ∧ t.hdr = ⟨s.params.sync, 0, length⟩ ∧ t.tick = 0 ∧
      t.link.inbound = rest ∧
      t.link.outbound = s.link.outbound ++ frameBytes s.params.sync s.params.opExecute len payload ∧
      t.sink = s.sink ++ image ∧ t.sinkReady = s.sinkReady - image.length ∧ t.yld = s.yld ∧ HostKept s t

/-- Every command on every environment agrees with the big-step function (42_executor.md R173): where that function
ends, the command ends in the same state; where it lacks an answer or a ready sink, the unit waits with the command in
flight. That a command instruction runs as far as the environment has answered is log entry 14. -/
def Obligations.CommandAgreesWithBigStep : Prop :=
  ∀ (s : State) (k : CommandKind) (len : Word16) (payload : List Byte) (imgreq : Bool),
    s.phase = .idle → s.offers = [] →
    let img := if k = .execute then imgreq else false
    configReady (boundDecoder k) img s.cfg = true →
    (∀ t, bigExecute (boundDecoder k) (commandOf s.params k len payload img) s = some t →
      exec (k.instr len payload imgreq) s = .next t) ∧
    (bigExecute (boundDecoder k) (commandOf s.params k len payload img) s = none →
      ∃ t, exec (k.instr len payload imgreq) s = .next t ∧ t.phase ≠ .idle ∧ Waiting t)

/-- A rejected header ends any command (42_executor.md R164 to R166; 60_exceptions.md R253): a wrong sync byte before
a nonzero status, six bytes consumed and no more, no typed result, and everything after the header left in the
transport. That a command instruction runs through is log entry 14. -/
def Obligations.RejectedHeaderEndsCommand : Prop :=
  ∀ (s : State) (k : CommandKind) (len : Word16) (payload : List Byte) (imgreq : Bool) (sync status : Byte)
    (length : Word32) (rest : List Byte),
    HostReady s → PlainQueue 3 s → len.toNat ≤ 28 → payload.length = len.toNat →
    sync ≠ s.params.sync ∨ status ≠ 0 → s.link.inbound = encodeHeader sync status length ++ rest →
    ∃ t, exec (k.instr len payload imgreq) s = .next t ∧ t.phase = .idle ∧ t.res.valid = true ∧
      t.res.code = (if sync ≠ s.params.sync then .badSync else .device) ∧
      (sync = s.params.sync → t.res.devStatus = status) ∧ t.res.dataValid = false ∧ t.typedResult = none ∧
      t.hdr = ⟨sync, status, length⟩ ∧
      t.link = ⟨rest, s.link.outbound ++ frameBytes s.params.sync (opcodeOf s.params k) len payload,
        s.link.answers.drop 3⟩ ∧
      t.sink = s.sink ∧ t.sinkReady = s.sinkReady ∧ HostKept s t

/-- A command whose polls all find nothing times out after exactly `max(N, 1)` polls with a yield between each two and
one send (41_poll.md R143 to R145), having read nothing: bytes that arrive meanwhile stay in the transport. That a
command instruction runs through is log entry 14; the trace it counts in is log entry 24; returns of yields counted
before they are asked for are log entry 21. -/
def Obligations.TimeoutPollCount : Prop :=
  ∀ (s : State) (k : CommandKind) (len : Word16) (payload : List Byte) (imgreq : Bool) (sent : Answer)
    (polls rest : List Answer),
    HostReady s → len.toNat ≤ 28 → payload.length = len.toNat →
    s.link.answers = sent :: polls ++ rest → 32 ≤ sent.count →
    polls.length = max s.cfg.maxWaitPolls.toNat 1 → (∀ a ∈ polls, a.count = 0) → polls.length - 1 ≤ s.yld.acks →
    ∃ t, exec (k.instr len payload imgreq) s = .next t ∧ t.phase = .idle ∧ t.res.valid = true ∧ t.res.code = .timeout ∧
      t.res.dataValid = false ∧ t.tick.toNat = polls.length ∧ writesIn t.trace = 1 ∧
      pollsIn t.trace = polls.length ∧ yieldsIn t.trace = polls.length - 1 ∧ readIn t.trace = [] ∧
      t.link = ⟨s.link.inbound ++ sent.arrived ++ polls.flatMap (·.arrived),
        s.link.outbound ++ frameBytes s.params.sync (opcodeOf s.params k) len payload, rest⟩ ∧
      t.sink = s.sink ∧ t.sinkReady = s.sinkReady ∧ t.hdr = s.hdr ∧ t.yld.req = false ∧
      t.yld.acks = s.yld.acks - (polls.length - 1) ∧
      HostKept s t

/-! ### Waiting and termination -/

/-- The unit has no step exactly where 00_scope.md R10 (c) says it waits: for a command in IDLE, for the return of a yield,
for an answer of the transport, or for the sink to be ready for a chunk; a step that makes no request never waits. Waiting
as a step not taken is log entry 8; IMG_STREAM's requests as one step are log entry 10; the sink's readiness counted in
beats is log entry 12. -/
def Obligations.WaitingExactly : Prop :=
  ∀ s : State, Waiting s ↔
    match s.phase with
    | .idle => s.offers = []
    | .send | .header | .fixed | .exSub | .imgDim => s.link.answers = []
    | .wait => s.yld.req = true ∧ s.yld.acks = 0 ∨ s.link.answers = []
    | .exBody => s.items ≠ 0 ∧ s.params.bodyItemBytes ≠ 0 ∧ s.link.answers = []
    | .exHand => s.items ≠ 0 ∧ s.params.handItemBytes ≠ 0 ∧ s.link.answers = []
    | .imgStream =>
      s.yld.req = true ∧ s.yld.acks = 0 ∨ s.link.answers = [] ∨
        ∃ a rest, s.link.answers = a :: rest ∧ 0 < a.count ∧ s.link.inbound ++ a.arrived ≠ [] ∧
          (rest = [] ∨ ∃ b rest', rest = b :: rest' ∧ s.sinkReady <
            ((s.link.inbound ++ a.arrived ++ b.arrived).take (min b.count (chunkSize s.params s.data.imgRem
              (min a.count (s.link.inbound ++ a.arrived).length)))).length)

/-- Termination (42_executor.md R171): from any state, a run of the unit ends where it waits for another agent, and
nowhere else. Running on is log entry 14. -/
def Obligations.RunEndsWaiting : Prop :=
  ∀ s t : State, runUntilWaits s = .next t → Waiting t

/-- Every turn of the stream ends the command, or lowers `IMG_REM`, or raises `RETRY` by one within the ceiling
(42_executor.md R171): the measure the bound of that rule counts. The control invariant is the model's, stated on its
own below. -/
def Obligations.DrainProgress : Prop :=
  ∀ s t : State, ControlInv s → s.phase = .imgStream → unitTurn s = .moves t →
    t.phase = .idle ∧ t.res.valid = true ∧ t.res.code = .ok ∨
    t.phase = .imgStream ∧ t.data.imgRem.toNat < s.data.imgRem.toNat ∨
    t.phase = .imgStream ∧ t.data.imgRem = s.data.imgRem ∧ t.retry.toNat = s.retry.toNat + 1 ∧
      t.retry.toNat ≤ t.shadow.imgRetryCeil.toNat

/-! ### Invariants -/

/-- The control invariant is kept by every step. Its clauses are the rules named at each field of `ControlInv`; the
agenda is log entry 1. `imagePresent` and `degraded` speak of the flags before the first command too, where R52 leaves them
unspecified: after reset and after the move `rst` they hold by the model's reset values, log entries 5 and 18. -/
def Obligations.ControlInvKept : Prop :=
  ∀ s t : State, ControlInv s → step s = .next t → ControlInv t

/-- The poll account (41_poll.md R143) is kept by every step. The trace it counts in is log entry 24; its control part after
`rst` leans on log entries 5 and 18. -/
def Obligations.PollInvKept : Prop :=
  ∀ s t : State, PollInv s → step s = .next t → PollInv t

/-- The byte account (60_exceptions.md R252; 20_memory.md R81; 44_execute_image.md R225) is kept by every step. A short
read is exact through its trace: every read before it whole, and its own bytes fewer than asked for; one read for each
thing is 92_eei_decisions.md D11. The trace it counts in is log entry 24; its control part after `rst` leans on log
entries 5 and 18. -/
def Obligations.ByteInvKept : Prop :=
  ∀ s t : State, ByteInv s → step s = .next t → ByteInv t

/-- The order of requests (20_memory.md R61, R78) is kept by every step, over an agenda of the agents' own moves. The
agenda's premise is log entry 15; the trace is log entry 24. -/
def Obligations.OrderInvKept : Prop :=
  ∀ s t : State, OrderInv s → AgendaExternal s → step s = .next t → OrderInv t

/-- The machine after reset meets the four invariants, for every choice of the parameters. It leans on the reset
values of log entry 5. -/
def Obligations.ResetMeetsInvariants : Prop :=
  ∀ p : Params, ControlInv (State.resetWith p) ∧ PollInv (State.resetWith p) ∧ ByteInv (State.resetWith p) ∧
    OrderInv (State.resetWith p)

/-! ### Whole-machine rules -/

/-- The outbound stream and the sink stream are append-only (10_state.md R47), and the parameters never change
(00_scope.md R7), whatever step is taken. The parameters as a field of the state are log entry 2. -/
def Obligations.OutputsAppendOnly : Prop :=
  ∀ s t : State, step s = .next t →
    s.link.outbound <+: t.link.outbound ∧ s.sink <+: t.sink ∧ t.params = s.params

/-- Each register and stream is written by the steps its rule names and by no other (10_state.md R27 to R29, R33, R35 to
R38, R41 to R43, R47), when the unit moves. The result data registers are free values at an end without data (R36; log
entry 7), so of them it speaks while the command goes on or ends with data. That the unit moves when the agenda is empty
is log entry 1. -/
def Obligations.RegisterWriters : Prop :=
  ∀ s t : State, s.agenda = [] → step s = .next t →
    (s.phase ≠ .idle → t.cmd = s.cmd ∧ t.shadow = s.shadow ∧ t.offers = s.offers) ∧
    (s.phase ≠ .header → t.hdr = s.hdr) ∧
    (s.phase ≠ .send → t.link.outbound = s.link.outbound) ∧
    (s.phase ≠ .imgStream → t.sink = s.sink ∧ t.sinkReady = s.sinkReady) ∧
    (s.phase ≠ .send → s.phase ≠ .wait → t.tick = s.tick) ∧
    (s.phase ≠ .imgDim → s.phase ≠ .imgStream → t.retry = s.retry) ∧
    (s.phase ≠ .exSub → s.phase ≠ .exBody → s.phase ≠ .exHand → t.items = s.items) ∧
    (s.phase ≠ .wait → s.phase ≠ .imgStream → t.yld = s.yld) ∧
    (s.phase = .idle → t.link = s.link) ∧
    (s.phase = .send ∨ s.phase = .wait → s.link.inbound <+: t.link.inbound) ∧
    (t.phase ≠ .idle ∨ t.res.dataValid = true →
      (s.phase ≠ .fixed → t.data.rb = s.data.rb) ∧
      (s.phase ≠ .exSub → t.data.bodyCount = s.data.bodyCount ∧ t.data.handCount = s.data.handCount ∧
        t.data.faceCount = s.data.faceCount) ∧
      (s.phase ≠ .imgDim → t.data.imgW = s.data.imgW ∧ t.data.imgH = s.data.imgH) ∧
      (s.phase ≠ .imgDim → s.phase ≠ .imgStream → t.data.imgRem = s.data.imgRem) ∧
      (s.phase ≠ .header → s.phase.executing = false → t.data.budgetLeft = s.data.budgetLeft)) ∧
    (t.phase ≠ .idle → t.res.code = s.res.code ∧ t.res.dataValid = s.res.dataValid ∧
      t.res.devStatus = s.res.devStatus ∧ (s.phase ≠ .idle → t.res.valid = s.res.valid)) ∧
    (s.phase ≠ .idle → s.phase ≠ .imgDim → t.res.imgPresent = s.res.imgPresent) ∧
    (s.phase ≠ .idle → s.phase ≠ .imgStream → t.res.imgIncomplete = s.res.imgIncomplete) ∧
    (s.phase ≠ .idle → s.phase.executing = false → t.res.overBudget = s.res.overBudget) ∧
    t.cfg = s.cfg ∧ t.cfgSel = s.cfgSel ∧ t.params = s.params ∧ t.agenda = []

/-- A command in flight does not see the configuration registers (10_state.md R33; 20_memory.md R84): whatever they
hold, it runs to the same end. Running on is log entry 14. -/
def Obligations.ConfigurationUnseenInFlight : Prop :=
  ∀ (s t : State) (cfg : ConfigRegs), runUntilIdle s = .next t →
    runUntilIdle { s with cfg := cfg } = .next { t with cfg := cfg }

/-- Payload bytes at index `cmd_len` and above are ignored (10_state.md R22): two commands that differ only there are
accepted to the same state. What the registers hold from `C_LEN` on is log entry 7. -/
def Obligations.PayloadTailIgnored : Prop :=
  ∀ (s : State) (c : Command) (rest : List Command) (tail : Vector Byte 28),
    tail.toList.take c.len.toNat = c.payload.toList.take c.len.toNat →
    exec .stepIdle { s with offers := c :: rest } =
      exec .stepIdle { s with offers := { c with payload := tail } :: rest }

/-- `cmd_imgreq` is read only for `DEC_EXEC` (10_state.md R22): any other command in flight runs to the same end
whatever `C_IMGREQ` holds. Running on is log entry 14. -/
def Obligations.ImageRequestUnseenElsewhere : Prop :=
  ∀ (s t : State) (imgreq : Bool), s.cmd.dec ≠ .exec → s.phase.executing = false → runUntilIdle s = .next t →
    runUntilIdle { s with cmd.imgreq := imgreq } = .next { t with cmd.imgreq := imgreq }

/-- The declared length and the budget change no transition (44_execute_image.md R230; 42_executor.md R168): with any
other `H_LEN` and `BUDGET_LEFT` a command in flight runs to the same end but for those registers and
`RES_OVER_BUDGET`. Running on is log entry 14. -/
def Obligations.BudgetChangesNoTransition : Prop :=
  ∀ (s t : State) (length budget : Word32), runUntilIdle s = .next t →
    ∃ u, runUntilIdle { s with hdr.len := length, data.budgetLeft := budget } = .next u ∧
      { u with
        hdr.len := t.hdr.len
        data.budgetLeft := t.data.budgetLeft
        res.overBudget := t.res.overBudget } = t

/-- A failed command leaves a code and no typed result; a device's own error also leaves its status (43_decoders.md
R205). -/
def Obligations.FailureHasNoTypedResult : Prop :=
  ∀ (s : State), ControlInv s → s.res.valid = true → s.res.code ≠ .ok →
    s.res.dataValid = false ∧ s.typedResult = none ∧
    s.diagnostic = some (resCodeNumber s.res.code, if s.res.code = .device then some s.res.devStatus else none)
end

