-- ==== Sys2Proof/Laws/State.lean ====
section
/-!
SUPPORT. One lemma per field per named update of the state.
-/

namespace Sys2Proof.Machine

@[simp] theorem record_phase (e : Event) (s : State) :
    (record e s).phase = s.phase := rfl
@[simp] theorem record_tick (e : Event) (s : State) :
    (record e s).tick = s.tick := rfl
@[simp] theorem record_retry (e : Event) (s : State) :
    (record e s).retry = s.retry := rfl
@[simp] theorem record_items (e : Event) (s : State) :
    (record e s).items = s.items := rfl
@[simp] theorem record_cmd (e : Event) (s : State) :
    (record e s).cmd = s.cmd := rfl
@[simp] theorem record_hdr (e : Event) (s : State) :
    (record e s).hdr = s.hdr := rfl
@[simp] theorem record_data (e : Event) (s : State) :
    (record e s).data = s.data := rfl
@[simp] theorem record_res (e : Event) (s : State) :
    (record e s).res = s.res := rfl
@[simp] theorem record_cfg (e : Event) (s : State) :
    (record e s).cfg = s.cfg := rfl
@[simp] theorem record_shadow (e : Event) (s : State) :
    (record e s).shadow = s.shadow := rfl
@[simp] theorem record_cfgSel (e : Event) (s : State) :
    (record e s).cfgSel = s.cfgSel := rfl
@[simp] theorem record_offers (e : Event) (s : State) :
    (record e s).offers = s.offers := rfl
@[simp] theorem record_link (e : Event) (s : State) :
    (record e s).link = s.link := rfl
@[simp] theorem record_sink (e : Event) (s : State) :
    (record e s).sink = s.sink := rfl
@[simp] theorem record_sinkReady (e : Event) (s : State) :
    (record e s).sinkReady = s.sinkReady := rfl
@[simp] theorem record_yld (e : Event) (s : State) :
    (record e s).yld = s.yld := rfl
@[simp] theorem record_params (e : Event) (s : State) :
    (record e s).params = s.params := rfl
@[simp] theorem record_agenda (e : Event) (s : State) :
    (record e s).agenda = s.agenda := rfl
@[simp] theorem record_trace (e : Event) (s : State) :
    (record e s).trace = s.trace ++ [e] := rfl
@[simp] theorem record_freeIdx (e : Event) (s : State) :
    (record e s).freeIdx = s.freeIdx := rfl

@[simp] theorem sinkTakes_phase (bs : List Byte) (s : State) :
    (sinkTakes bs s).phase = s.phase := rfl
@[simp] theorem sinkTakes_tick (bs : List Byte) (s : State) :
    (sinkTakes bs s).tick = s.tick := rfl
@[simp] theorem sinkTakes_retry (bs : List Byte) (s : State) :
    (sinkTakes bs s).retry = s.retry := rfl
@[simp] theorem sinkTakes_items (bs : List Byte) (s : State) :
    (sinkTakes bs s).items = s.items := rfl
@[simp] theorem sinkTakes_cmd (bs : List Byte) (s : State) :
    (sinkTakes bs s).cmd = s.cmd := rfl
@[simp] theorem sinkTakes_hdr (bs : List Byte) (s : State) :
    (sinkTakes bs s).hdr = s.hdr := rfl
@[simp] theorem sinkTakes_data (bs : List Byte) (s : State) :
    (sinkTakes bs s).data = s.data := rfl
@[simp] theorem sinkTakes_res (bs : List Byte) (s : State) :
    (sinkTakes bs s).res = s.res := rfl
@[simp] theorem sinkTakes_cfg (bs : List Byte) (s : State) :
    (sinkTakes bs s).cfg = s.cfg := rfl
@[simp] theorem sinkTakes_shadow (bs : List Byte) (s : State) :
    (sinkTakes bs s).shadow = s.shadow := rfl
@[simp] theorem sinkTakes_cfgSel (bs : List Byte) (s : State) :
    (sinkTakes bs s).cfgSel = s.cfgSel := rfl
@[simp] theorem sinkTakes_offers (bs : List Byte) (s : State) :
    (sinkTakes bs s).offers = s.offers := rfl
@[simp] theorem sinkTakes_link (bs : List Byte) (s : State) :
    (sinkTakes bs s).link = s.link := rfl
@[simp] theorem sinkTakes_sink (bs : List Byte) (s : State) :
    (sinkTakes bs s).sink = s.sink ++ bs := rfl
@[simp] theorem sinkTakes_sinkReady (bs : List Byte) (s : State) :
    (sinkTakes bs s).sinkReady = s.sinkReady - bs.length := rfl
@[simp] theorem sinkTakes_yld (bs : List Byte) (s : State) :
    (sinkTakes bs s).yld = s.yld := rfl
@[simp] theorem sinkTakes_params (bs : List Byte) (s : State) :
    (sinkTakes bs s).params = s.params := rfl
@[simp] theorem sinkTakes_agenda (bs : List Byte) (s : State) :
    (sinkTakes bs s).agenda = s.agenda := rfl
@[simp] theorem sinkTakes_trace (bs : List Byte) (s : State) :
    (sinkTakes bs s).trace = s.trace ++ [.sank bs] := rfl
@[simp] theorem sinkTakes_freeIdx (bs : List Byte) (s : State) :
    (sinkTakes bs s).freeIdx = s.freeIdx := rfl

@[simp] theorem yieldFor_phase (ms : Word32) (s : State) :
    (yieldFor ms s).phase = s.phase := rfl
@[simp] theorem yieldFor_tick (ms : Word32) (s : State) :
    (yieldFor ms s).tick = s.tick := rfl
@[simp] theorem yieldFor_retry (ms : Word32) (s : State) :
    (yieldFor ms s).retry = s.retry := rfl
@[simp] theorem yieldFor_items (ms : Word32) (s : State) :
    (yieldFor ms s).items = s.items := rfl
@[simp] theorem yieldFor_cmd (ms : Word32) (s : State) :
    (yieldFor ms s).cmd = s.cmd := rfl
@[simp] theorem yieldFor_hdr (ms : Word32) (s : State) :
    (yieldFor ms s).hdr = s.hdr := rfl
@[simp] theorem yieldFor_data (ms : Word32) (s : State) :
    (yieldFor ms s).data = s.data := rfl
@[simp] theorem yieldFor_res (ms : Word32) (s : State) :
    (yieldFor ms s).res = s.res := rfl
@[simp] theorem yieldFor_cfg (ms : Word32) (s : State) :
    (yieldFor ms s).cfg = s.cfg := rfl
@[simp] theorem yieldFor_shadow (ms : Word32) (s : State) :
    (yieldFor ms s).shadow = s.shadow := rfl
@[simp] theorem yieldFor_cfgSel (ms : Word32) (s : State) :
    (yieldFor ms s).cfgSel = s.cfgSel := rfl
@[simp] theorem yieldFor_offers (ms : Word32) (s : State) :
    (yieldFor ms s).offers = s.offers := rfl
@[simp] theorem yieldFor_link (ms : Word32) (s : State) :
    (yieldFor ms s).link = s.link := rfl
@[simp] theorem yieldFor_sink (ms : Word32) (s : State) :
    (yieldFor ms s).sink = s.sink := rfl
@[simp] theorem yieldFor_sinkReady (ms : Word32) (s : State) :
    (yieldFor ms s).sinkReady = s.sinkReady := rfl
@[simp] theorem yieldFor_yld (ms : Word32) (s : State) :
    (yieldFor ms s).yld = ⟨true, ms, s.yld.acks⟩ := rfl
@[simp] theorem yieldFor_params (ms : Word32) (s : State) :
    (yieldFor ms s).params = s.params := rfl
@[simp] theorem yieldFor_agenda (ms : Word32) (s : State) :
    (yieldFor ms s).agenda = s.agenda := rfl
@[simp] theorem yieldFor_trace (ms : Word32) (s : State) :
    (yieldFor ms s).trace = s.trace ++ [.yielded ms] := rfl
@[simp] theorem yieldFor_freeIdx (ms : Word32) (s : State) :
    (yieldFor ms s).freeIdx = s.freeIdx := rfl

@[simp] theorem finish_phase (c : ResCode) (s : State) :
    (finish c s).phase = .idle := rfl
@[simp] theorem finish_tick (c : ResCode) (s : State) :
    (finish c s).tick = s.tick := rfl
@[simp] theorem finish_retry (c : ResCode) (s : State) :
    (finish c s).retry = s.retry := rfl
@[simp] theorem finish_items (c : ResCode) (s : State) :
    (finish c s).items = s.items := rfl
@[simp] theorem finish_cmd (c : ResCode) (s : State) :
    (finish c s).cmd = s.cmd := rfl
@[simp] theorem finish_hdr (c : ResCode) (s : State) :
    (finish c s).hdr = s.hdr := rfl
@[simp] theorem finish_data (c : ResCode) (s : State) :
    (finish c s).data = if dataValidOf c s.cmd.dec then s.data else freeData s.freeIdx := rfl
@[simp] theorem finish_res (c : ResCode) (s : State) :
    (finish c s).res = ⟨true, c, dataValidOf c s.cmd.dec, if c = .device then s.hdr.status else freeDevStatus s.freeIdx,
      s.res.imgPresent, s.res.imgIncomplete, s.res.overBudget⟩ := rfl
@[simp] theorem finish_cfg (c : ResCode) (s : State) :
    (finish c s).cfg = s.cfg := rfl
@[simp] theorem finish_shadow (c : ResCode) (s : State) :
    (finish c s).shadow = s.shadow := rfl
@[simp] theorem finish_cfgSel (c : ResCode) (s : State) :
    (finish c s).cfgSel = s.cfgSel := rfl
@[simp] theorem finish_offers (c : ResCode) (s : State) :
    (finish c s).offers = s.offers := rfl
@[simp] theorem finish_link (c : ResCode) (s : State) :
    (finish c s).link = s.link := rfl
@[simp] theorem finish_sink (c : ResCode) (s : State) :
    (finish c s).sink = s.sink := rfl
@[simp] theorem finish_sinkReady (c : ResCode) (s : State) :
    (finish c s).sinkReady = s.sinkReady := rfl
@[simp] theorem finish_yld (c : ResCode) (s : State) :
    (finish c s).yld = s.yld := rfl
@[simp] theorem finish_params (c : ResCode) (s : State) :
    (finish c s).params = s.params := rfl
@[simp] theorem finish_agenda (c : ResCode) (s : State) :
    (finish c s).agenda = s.agenda := rfl
@[simp] theorem finish_trace (c : ResCode) (s : State) :
    (finish c s).trace = s.trace := rfl
@[simp] theorem finish_freeIdx (c : ResCode) (s : State) :
    (finish c s).freeIdx = s.freeIdx + 1 := rfl

@[simp] theorem offerCommand_phase (c : Command) (s : State) :
    (offerCommand c s).phase = s.phase := rfl
@[simp] theorem offerCommand_tick (c : Command) (s : State) :
    (offerCommand c s).tick = s.tick := rfl
@[simp] theorem offerCommand_retry (c : Command) (s : State) :
    (offerCommand c s).retry = s.retry := rfl
@[simp] theorem offerCommand_items (c : Command) (s : State) :
    (offerCommand c s).items = s.items := rfl
@[simp] theorem offerCommand_cmd (c : Command) (s : State) :
    (offerCommand c s).cmd = s.cmd := rfl
@[simp] theorem offerCommand_hdr (c : Command) (s : State) :
    (offerCommand c s).hdr = s.hdr := rfl
@[simp] theorem offerCommand_data (c : Command) (s : State) :
    (offerCommand c s).data = s.data := rfl
@[simp] theorem offerCommand_res (c : Command) (s : State) :
    (offerCommand c s).res = s.res := rfl
@[simp] theorem offerCommand_cfg (c : Command) (s : State) :
    (offerCommand c s).cfg = s.cfg := rfl
@[simp] theorem offerCommand_shadow (c : Command) (s : State) :
    (offerCommand c s).shadow = s.shadow := rfl
@[simp] theorem offerCommand_cfgSel (c : Command) (s : State) :
    (offerCommand c s).cfgSel = s.cfgSel := rfl
@[simp] theorem offerCommand_offers (c : Command) (s : State) :
    (offerCommand c s).offers = s.offers ++ [c] := rfl
@[simp] theorem offerCommand_link (c : Command) (s : State) :
    (offerCommand c s).link = s.link := rfl
@[simp] theorem offerCommand_sink (c : Command) (s : State) :
    (offerCommand c s).sink = s.sink := rfl
@[simp] theorem offerCommand_sinkReady (c : Command) (s : State) :
    (offerCommand c s).sinkReady = s.sinkReady := rfl
@[simp] theorem offerCommand_yld (c : Command) (s : State) :
    (offerCommand c s).yld = s.yld := rfl
@[simp] theorem offerCommand_params (c : Command) (s : State) :
    (offerCommand c s).params = s.params := rfl
@[simp] theorem offerCommand_agenda (c : Command) (s : State) :
    (offerCommand c s).agenda = s.agenda := rfl
@[simp] theorem offerCommand_trace (c : Command) (s : State) :
    (offerCommand c s).trace = s.trace := rfl
@[simp] theorem offerCommand_freeIdx (c : Command) (s : State) :
    (offerCommand c s).freeIdx = s.freeIdx := rfl

@[simp] theorem deliverBytes_phase (bs : List Byte) (s : State) :
    (deliverBytes bs s).phase = s.phase := rfl
@[simp] theorem deliverBytes_tick (bs : List Byte) (s : State) :
    (deliverBytes bs s).tick = s.tick := rfl
@[simp] theorem deliverBytes_retry (bs : List Byte) (s : State) :
    (deliverBytes bs s).retry = s.retry := rfl
@[simp] theorem deliverBytes_items (bs : List Byte) (s : State) :
    (deliverBytes bs s).items = s.items := rfl
@[simp] theorem deliverBytes_cmd (bs : List Byte) (s : State) :
    (deliverBytes bs s).cmd = s.cmd := rfl
@[simp] theorem deliverBytes_hdr (bs : List Byte) (s : State) :
    (deliverBytes bs s).hdr = s.hdr := rfl
@[simp] theorem deliverBytes_data (bs : List Byte) (s : State) :
    (deliverBytes bs s).data = s.data := rfl
@[simp] theorem deliverBytes_res (bs : List Byte) (s : State) :
    (deliverBytes bs s).res = s.res := rfl
@[simp] theorem deliverBytes_cfg (bs : List Byte) (s : State) :
    (deliverBytes bs s).cfg = s.cfg := rfl
@[simp] theorem deliverBytes_shadow (bs : List Byte) (s : State) :
    (deliverBytes bs s).shadow = s.shadow := rfl
@[simp] theorem deliverBytes_cfgSel (bs : List Byte) (s : State) :
    (deliverBytes bs s).cfgSel = s.cfgSel := rfl
@[simp] theorem deliverBytes_offers (bs : List Byte) (s : State) :
    (deliverBytes bs s).offers = s.offers := rfl
@[simp] theorem deliverBytes_link (bs : List Byte) (s : State) :
    (deliverBytes bs s).link = ⟨s.link.inbound ++ bs, s.link.outbound, s.link.answers⟩ := rfl
@[simp] theorem deliverBytes_sink (bs : List Byte) (s : State) :
    (deliverBytes bs s).sink = s.sink := rfl
@[simp] theorem deliverBytes_sinkReady (bs : List Byte) (s : State) :
    (deliverBytes bs s).sinkReady = s.sinkReady := rfl
@[simp] theorem deliverBytes_yld (bs : List Byte) (s : State) :
    (deliverBytes bs s).yld = s.yld := rfl
@[simp] theorem deliverBytes_params (bs : List Byte) (s : State) :
    (deliverBytes bs s).params = s.params := rfl
@[simp] theorem deliverBytes_agenda (bs : List Byte) (s : State) :
    (deliverBytes bs s).agenda = s.agenda := rfl
@[simp] theorem deliverBytes_trace (bs : List Byte) (s : State) :
    (deliverBytes bs s).trace = s.trace := rfl
@[simp] theorem deliverBytes_freeIdx (bs : List Byte) (s : State) :
    (deliverBytes bs s).freeIdx = s.freeIdx := rfl

@[simp] theorem selectConfig_phase (sel : BitVec 2) (s : State) :
    (selectConfig sel s).phase = s.phase := rfl
@[simp] theorem selectConfig_tick (sel : BitVec 2) (s : State) :
    (selectConfig sel s).tick = s.tick := rfl
@[simp] theorem selectConfig_retry (sel : BitVec 2) (s : State) :
    (selectConfig sel s).retry = s.retry := rfl
@[simp] theorem selectConfig_items (sel : BitVec 2) (s : State) :
    (selectConfig sel s).items = s.items := rfl
@[simp] theorem selectConfig_cmd (sel : BitVec 2) (s : State) :
    (selectConfig sel s).cmd = s.cmd := rfl
@[simp] theorem selectConfig_hdr (sel : BitVec 2) (s : State) :
    (selectConfig sel s).hdr = s.hdr := rfl
@[simp] theorem selectConfig_data (sel : BitVec 2) (s : State) :
    (selectConfig sel s).data = s.data := rfl
@[simp] theorem selectConfig_res (sel : BitVec 2) (s : State) :
    (selectConfig sel s).res = s.res := rfl
@[simp] theorem selectConfig_cfg (sel : BitVec 2) (s : State) :
    (selectConfig sel s).cfg = s.cfg := rfl
@[simp] theorem selectConfig_shadow (sel : BitVec 2) (s : State) :
    (selectConfig sel s).shadow = s.shadow := rfl
@[simp] theorem selectConfig_cfgSel (sel : BitVec 2) (s : State) :
    (selectConfig sel s).cfgSel = sel := rfl
@[simp] theorem selectConfig_offers (sel : BitVec 2) (s : State) :
    (selectConfig sel s).offers = s.offers := rfl
@[simp] theorem selectConfig_link (sel : BitVec 2) (s : State) :
    (selectConfig sel s).link = s.link := rfl
@[simp] theorem selectConfig_sink (sel : BitVec 2) (s : State) :
    (selectConfig sel s).sink = s.sink := rfl
@[simp] theorem selectConfig_sinkReady (sel : BitVec 2) (s : State) :
    (selectConfig sel s).sinkReady = s.sinkReady := rfl
@[simp] theorem selectConfig_yld (sel : BitVec 2) (s : State) :
    (selectConfig sel s).yld = s.yld := rfl
@[simp] theorem selectConfig_params (sel : BitVec 2) (s : State) :
    (selectConfig sel s).params = s.params := rfl
@[simp] theorem selectConfig_agenda (sel : BitVec 2) (s : State) :
    (selectConfig sel s).agenda = s.agenda := rfl
@[simp] theorem selectConfig_trace (sel : BitVec 2) (s : State) :
    (selectConfig sel s).trace = s.trace := rfl
@[simp] theorem selectConfig_freeIdx (sel : BitVec 2) (s : State) :
    (selectConfig sel s).freeIdx = s.freeIdx := rfl

@[simp] theorem writeMaxWaitPolls_phase (v : Word32) (s : State) :
    (writeMaxWaitPolls v s).phase = s.phase := rfl
@[simp] theorem writeMaxWaitPolls_tick (v : Word32) (s : State) :
    (writeMaxWaitPolls v s).tick = s.tick := rfl
@[simp] theorem writeMaxWaitPolls_retry (v : Word32) (s : State) :
    (writeMaxWaitPolls v s).retry = s.retry := rfl
@[simp] theorem writeMaxWaitPolls_items (v : Word32) (s : State) :
    (writeMaxWaitPolls v s).items = s.items := rfl
@[simp] theorem writeMaxWaitPolls_cmd (v : Word32) (s : State) :
    (writeMaxWaitPolls v s).cmd = s.cmd := rfl
@[simp] theorem writeMaxWaitPolls_hdr (v : Word32) (s : State) :
    (writeMaxWaitPolls v s).hdr = s.hdr := rfl
@[simp] theorem writeMaxWaitPolls_data (v : Word32) (s : State) :
    (writeMaxWaitPolls v s).data = s.data := rfl
@[simp] theorem writeMaxWaitPolls_res (v : Word32) (s : State) :
    (writeMaxWaitPolls v s).res = s.res := rfl
@[simp] theorem writeMaxWaitPolls_cfg (v : Word32) (s : State) :
    (writeMaxWaitPolls v s).cfg = { s.cfg with maxWaitPolls := v, maxWaitPollsWritten := true } := rfl
@[simp] theorem writeMaxWaitPolls_shadow (v : Word32) (s : State) :
    (writeMaxWaitPolls v s).shadow = s.shadow := rfl
@[simp] theorem writeMaxWaitPolls_cfgSel (v : Word32) (s : State) :
    (writeMaxWaitPolls v s).cfgSel = s.cfgSel := rfl
@[simp] theorem writeMaxWaitPolls_offers (v : Word32) (s : State) :
    (writeMaxWaitPolls v s).offers = s.offers := rfl
@[simp] theorem writeMaxWaitPolls_link (v : Word32) (s : State) :
    (writeMaxWaitPolls v s).link = s.link := rfl
@[simp] theorem writeMaxWaitPolls_sink (v : Word32) (s : State) :
    (writeMaxWaitPolls v s).sink = s.sink := rfl
@[simp] theorem writeMaxWaitPolls_sinkReady (v : Word32) (s : State) :
    (writeMaxWaitPolls v s).sinkReady = s.sinkReady := rfl
@[simp] theorem writeMaxWaitPolls_yld (v : Word32) (s : State) :
    (writeMaxWaitPolls v s).yld = s.yld := rfl
@[simp] theorem writeMaxWaitPolls_params (v : Word32) (s : State) :
    (writeMaxWaitPolls v s).params = s.params := rfl
@[simp] theorem writeMaxWaitPolls_agenda (v : Word32) (s : State) :
    (writeMaxWaitPolls v s).agenda = s.agenda := rfl
@[simp] theorem writeMaxWaitPolls_trace (v : Word32) (s : State) :
    (writeMaxWaitPolls v s).trace = s.trace := rfl
@[simp] theorem writeMaxWaitPolls_freeIdx (v : Word32) (s : State) :
    (writeMaxWaitPolls v s).freeIdx = s.freeIdx := rfl

@[simp] theorem writePollIntervalMs_phase (v : Word32) (s : State) :
    (writePollIntervalMs v s).phase = s.phase := rfl
@[simp] theorem writePollIntervalMs_tick (v : Word32) (s : State) :
    (writePollIntervalMs v s).tick = s.tick := rfl
@[simp] theorem writePollIntervalMs_retry (v : Word32) (s : State) :
    (writePollIntervalMs v s).retry = s.retry := rfl
@[simp] theorem writePollIntervalMs_items (v : Word32) (s : State) :
    (writePollIntervalMs v s).items = s.items := rfl
@[simp] theorem writePollIntervalMs_cmd (v : Word32) (s : State) :
    (writePollIntervalMs v s).cmd = s.cmd := rfl
@[simp] theorem writePollIntervalMs_hdr (v : Word32) (s : State) :
    (writePollIntervalMs v s).hdr = s.hdr := rfl
@[simp] theorem writePollIntervalMs_data (v : Word32) (s : State) :
    (writePollIntervalMs v s).data = s.data := rfl
@[simp] theorem writePollIntervalMs_res (v : Word32) (s : State) :
    (writePollIntervalMs v s).res = s.res := rfl
@[simp] theorem writePollIntervalMs_cfg (v : Word32) (s : State) :
    (writePollIntervalMs v s).cfg = { s.cfg with pollIntervalMs := v, pollIntervalMsWritten := true } := rfl
@[simp] theorem writePollIntervalMs_shadow (v : Word32) (s : State) :
    (writePollIntervalMs v s).shadow = s.shadow := rfl
@[simp] theorem writePollIntervalMs_cfgSel (v : Word32) (s : State) :
    (writePollIntervalMs v s).cfgSel = s.cfgSel := rfl
@[simp] theorem writePollIntervalMs_offers (v : Word32) (s : State) :
    (writePollIntervalMs v s).offers = s.offers := rfl
@[simp] theorem writePollIntervalMs_link (v : Word32) (s : State) :
    (writePollIntervalMs v s).link = s.link := rfl
@[simp] theorem writePollIntervalMs_sink (v : Word32) (s : State) :
    (writePollIntervalMs v s).sink = s.sink := rfl
@[simp] theorem writePollIntervalMs_sinkReady (v : Word32) (s : State) :
    (writePollIntervalMs v s).sinkReady = s.sinkReady := rfl
@[simp] theorem writePollIntervalMs_yld (v : Word32) (s : State) :
    (writePollIntervalMs v s).yld = s.yld := rfl
@[simp] theorem writePollIntervalMs_params (v : Word32) (s : State) :
    (writePollIntervalMs v s).params = s.params := rfl
@[simp] theorem writePollIntervalMs_agenda (v : Word32) (s : State) :
    (writePollIntervalMs v s).agenda = s.agenda := rfl
@[simp] theorem writePollIntervalMs_trace (v : Word32) (s : State) :
    (writePollIntervalMs v s).trace = s.trace := rfl
@[simp] theorem writePollIntervalMs_freeIdx (v : Word32) (s : State) :
    (writePollIntervalMs v s).freeIdx = s.freeIdx := rfl

@[simp] theorem writeImgRetryCeil_phase (v : Word32) (s : State) :
    (writeImgRetryCeil v s).phase = s.phase := rfl
@[simp] theorem writeImgRetryCeil_tick (v : Word32) (s : State) :
    (writeImgRetryCeil v s).tick = s.tick := rfl
@[simp] theorem writeImgRetryCeil_retry (v : Word32) (s : State) :
    (writeImgRetryCeil v s).retry = s.retry := rfl
@[simp] theorem writeImgRetryCeil_items (v : Word32) (s : State) :
    (writeImgRetryCeil v s).items = s.items := rfl
@[simp] theorem writeImgRetryCeil_cmd (v : Word32) (s : State) :
    (writeImgRetryCeil v s).cmd = s.cmd := rfl
@[simp] theorem writeImgRetryCeil_hdr (v : Word32) (s : State) :
    (writeImgRetryCeil v s).hdr = s.hdr := rfl
@[simp] theorem writeImgRetryCeil_data (v : Word32) (s : State) :
    (writeImgRetryCeil v s).data = s.data := rfl
@[simp] theorem writeImgRetryCeil_res (v : Word32) (s : State) :
    (writeImgRetryCeil v s).res = s.res := rfl
@[simp] theorem writeImgRetryCeil_cfg (v : Word32) (s : State) :
    (writeImgRetryCeil v s).cfg = { s.cfg with imgRetryCeil := v, imgRetryCeilWritten := true } := rfl
@[simp] theorem writeImgRetryCeil_shadow (v : Word32) (s : State) :
    (writeImgRetryCeil v s).shadow = s.shadow := rfl
@[simp] theorem writeImgRetryCeil_cfgSel (v : Word32) (s : State) :
    (writeImgRetryCeil v s).cfgSel = s.cfgSel := rfl
@[simp] theorem writeImgRetryCeil_offers (v : Word32) (s : State) :
    (writeImgRetryCeil v s).offers = s.offers := rfl
@[simp] theorem writeImgRetryCeil_link (v : Word32) (s : State) :
    (writeImgRetryCeil v s).link = s.link := rfl
@[simp] theorem writeImgRetryCeil_sink (v : Word32) (s : State) :
    (writeImgRetryCeil v s).sink = s.sink := rfl
@[simp] theorem writeImgRetryCeil_sinkReady (v : Word32) (s : State) :
    (writeImgRetryCeil v s).sinkReady = s.sinkReady := rfl
@[simp] theorem writeImgRetryCeil_yld (v : Word32) (s : State) :
    (writeImgRetryCeil v s).yld = s.yld := rfl
@[simp] theorem writeImgRetryCeil_params (v : Word32) (s : State) :
    (writeImgRetryCeil v s).params = s.params := rfl
@[simp] theorem writeImgRetryCeil_agenda (v : Word32) (s : State) :
    (writeImgRetryCeil v s).agenda = s.agenda := rfl
@[simp] theorem writeImgRetryCeil_trace (v : Word32) (s : State) :
    (writeImgRetryCeil v s).trace = s.trace := rfl
@[simp] theorem writeImgRetryCeil_freeIdx (v : Word32) (s : State) :
    (writeImgRetryCeil v s).freeIdx = s.freeIdx := rfl

/-! What the configuration registers hold: a written one its value (log entry 6). -/

@[simp] theorem heldConfig_maxWaitPolls {c : ConfigRegs} (h : c.maxWaitPollsWritten = true) :
    (heldConfig c).maxWaitPolls = c.maxWaitPolls := if_pos h
@[simp] theorem heldConfig_pollIntervalMs {c : ConfigRegs} (h : c.pollIntervalMsWritten = true) :
    (heldConfig c).pollIntervalMs = c.pollIntervalMs := if_pos h
@[simp] theorem heldConfig_imgRetryCeil {c : ConfigRegs} (h : c.imgRetryCeilWritten = true) :
    (heldConfig c).imgRetryCeil = c.imgRetryCeil := if_pos h

@[simp] theorem latchCommand_phase (d : Decoder) (c : Command) (s : State) :
    (latchCommand d c s).phase = s.phase := rfl
@[simp] theorem latchCommand_tick (d : Decoder) (c : Command) (s : State) :
    (latchCommand d c s).tick = s.tick := rfl
@[simp] theorem latchCommand_retry (d : Decoder) (c : Command) (s : State) :
    (latchCommand d c s).retry = s.retry := rfl
@[simp] theorem latchCommand_items (d : Decoder) (c : Command) (s : State) :
    (latchCommand d c s).items = s.items := rfl
@[simp] theorem latchCommand_cmd (d : Decoder) (c : Command) (s : State) :
    (latchCommand d c s).cmd = ⟨c.opcode, c.len, latchBytes 28 s.freeIdx c.len.toNat c.payload.toList, d, c.imgreq⟩ := rfl
@[simp] theorem latchCommand_hdr (d : Decoder) (c : Command) (s : State) :
    (latchCommand d c s).hdr = s.hdr := rfl
@[simp] theorem latchCommand_data (d : Decoder) (c : Command) (s : State) :
    (latchCommand d c s).data = s.data := rfl
@[simp] theorem latchCommand_res (d : Decoder) (c : Command) (s : State) :
    (latchCommand d c s).res = ⟨false, s.res.code, s.res.dataValid, s.res.devStatus, false, false, false⟩ := rfl
@[simp] theorem latchCommand_cfg (d : Decoder) (c : Command) (s : State) :
    (latchCommand d c s).cfg = s.cfg := rfl
@[simp] theorem latchCommand_shadow (d : Decoder) (c : Command) (s : State) :
    (latchCommand d c s).shadow = heldConfig s.cfg := rfl
@[simp] theorem latchCommand_cfgSel (d : Decoder) (c : Command) (s : State) :
    (latchCommand d c s).cfgSel = s.cfgSel := rfl
@[simp] theorem latchCommand_offers (d : Decoder) (c : Command) (s : State) :
    (latchCommand d c s).offers = s.offers := rfl
@[simp] theorem latchCommand_link (d : Decoder) (c : Command) (s : State) :
    (latchCommand d c s).link = s.link := rfl
@[simp] theorem latchCommand_sink (d : Decoder) (c : Command) (s : State) :
    (latchCommand d c s).sink = s.sink := rfl
@[simp] theorem latchCommand_sinkReady (d : Decoder) (c : Command) (s : State) :
    (latchCommand d c s).sinkReady = s.sinkReady := rfl
@[simp] theorem latchCommand_yld (d : Decoder) (c : Command) (s : State) :
    (latchCommand d c s).yld = s.yld := rfl
@[simp] theorem latchCommand_params (d : Decoder) (c : Command) (s : State) :
    (latchCommand d c s).params = s.params := rfl
@[simp] theorem latchCommand_agenda (d : Decoder) (c : Command) (s : State) :
    (latchCommand d c s).agenda = s.agenda := rfl
@[simp] theorem latchCommand_trace (d : Decoder) (c : Command) (s : State) :
    (latchCommand d c s).trace = [] := rfl
@[simp] theorem latchCommand_freeIdx (d : Decoder) (c : Command) (s : State) :
    (latchCommand d c s).freeIdx = s.freeIdx + 1 := rfl

@[simp] theorem consume_phase (k : Nat) (s : State) : (consume k s).phase = s.phase := by
  unfold consume; split <;> rfl
@[simp] theorem consume_tick (k : Nat) (s : State) : (consume k s).tick = s.tick := by
  unfold consume; split <;> rfl
@[simp] theorem consume_retry (k : Nat) (s : State) : (consume k s).retry = s.retry := by
  unfold consume; split <;> rfl
@[simp] theorem consume_items (k : Nat) (s : State) : (consume k s).items = s.items := by
  unfold consume; split <;> rfl
@[simp] theorem consume_cmd (k : Nat) (s : State) : (consume k s).cmd = s.cmd := by
  unfold consume; split <;> rfl
@[simp] theorem consume_hdr (k : Nat) (s : State) : (consume k s).hdr = s.hdr := by
  unfold consume; split <;> rfl
@[simp] theorem consume_cfg (k : Nat) (s : State) : (consume k s).cfg = s.cfg := by
  unfold consume; split <;> rfl
@[simp] theorem consume_shadow (k : Nat) (s : State) : (consume k s).shadow = s.shadow := by
  unfold consume; split <;> rfl
@[simp] theorem consume_cfgSel (k : Nat) (s : State) : (consume k s).cfgSel = s.cfgSel := by
  unfold consume; split <;> rfl
@[simp] theorem consume_offers (k : Nat) (s : State) : (consume k s).offers = s.offers := by
  unfold consume; split <;> rfl
@[simp] theorem consume_link (k : Nat) (s : State) : (consume k s).link = s.link := by
  unfold consume; split <;> rfl
@[simp] theorem consume_sink (k : Nat) (s : State) : (consume k s).sink = s.sink := by
  unfold consume; split <;> rfl
@[simp] theorem consume_sinkReady (k : Nat) (s : State) : (consume k s).sinkReady = s.sinkReady := by
  unfold consume; split <;> rfl
@[simp] theorem consume_yld (k : Nat) (s : State) : (consume k s).yld = s.yld := by
  unfold consume; split <;> rfl
@[simp] theorem consume_params (k : Nat) (s : State) : (consume k s).params = s.params := by
  unfold consume; split <;> rfl
@[simp] theorem consume_agenda (k : Nat) (s : State) : (consume k s).agenda = s.agenda := by
  unfold consume; split <;> rfl
@[simp] theorem consume_trace (k : Nat) (s : State) : (consume k s).trace = s.trace := by
  unfold consume; split <;> rfl
@[simp] theorem consume_freeIdx (k : Nat) (s : State) : (consume k s).freeIdx = s.freeIdx := by
  unfold consume; split <;> rfl

/-- `consume` touches one data register, the budget. -/
theorem consume_data (k : Nat) (s : State) :
    (consume k s).data = { s.data with budgetLeft := (consume k s).data.budgetLeft } := by
  unfold consume; split <;> rfl

@[simp] theorem consume_data_rb (k : Nat) (s : State) : (consume k s).data.rb = s.data.rb := by
  rw [consume_data]
@[simp] theorem consume_data_bodyCount (k : Nat) (s : State) : (consume k s).data.bodyCount = s.data.bodyCount := by
  rw [consume_data]
@[simp] theorem consume_data_handCount (k : Nat) (s : State) : (consume k s).data.handCount = s.data.handCount := by
  rw [consume_data]
@[simp] theorem consume_data_faceCount (k : Nat) (s : State) : (consume k s).data.faceCount = s.data.faceCount := by
  rw [consume_data]
@[simp] theorem consume_data_imgW (k : Nat) (s : State) : (consume k s).data.imgW = s.data.imgW := by
  rw [consume_data]
@[simp] theorem consume_data_imgH (k : Nat) (s : State) : (consume k s).data.imgH = s.data.imgH := by
  rw [consume_data]
@[simp] theorem consume_data_imgRem (k : Nat) (s : State) : (consume k s).data.imgRem = s.data.imgRem := by
  rw [consume_data]
@[simp] theorem consume_res_valid (k : Nat) (s : State) : (consume k s).res.valid = s.res.valid := by
  unfold consume; split <;> rfl
@[simp] theorem consume_res_code (k : Nat) (s : State) : (consume k s).res.code = s.res.code := by
  unfold consume; split <;> rfl
@[simp] theorem consume_res_dataValid (k : Nat) (s : State) : (consume k s).res.dataValid = s.res.dataValid := by
  unfold consume; split <;> rfl
@[simp] theorem consume_res_devStatus (k : Nat) (s : State) : (consume k s).res.devStatus = s.res.devStatus := by
  unfold consume; split <;> rfl
@[simp] theorem consume_res_imgPresent (k : Nat) (s : State) : (consume k s).res.imgPresent = s.res.imgPresent := by
  unfold consume; split <;> rfl
@[simp] theorem consume_res_imgIncomplete (k : Nat) (s : State) : (consume k s).res.imgIncomplete = s.res.imgIncomplete := by
  unfold consume; split <;> rfl

/-- The budget after `consume` is the truncated difference (44_execute_image.md R230). -/
theorem consume_budgetLeft_toNat (k : Nat) (s : State) :
    (consume k s).data.budgetLeft.toNat = s.data.budgetLeft.toNat - k := by
  unfold consume
  split
  · simp; omega
  · rename_i h
    have hb := s.data.budgetLeft.isLt
    simp only [BitVec.toNat_sub, BitVec.toNat_ofNat]
    omega

/-- `RES_OVER_BUDGET` after `consume` (44_execute_image.md R230). -/
theorem consume_overBudget (k : Nat) (s : State) :
    (consume k s).res.overBudget = (s.res.overBudget || decide (s.data.budgetLeft.toNat < k)) := by
  unfold consume
  split <;> simp_all

end Sys2Proof.Machine
end

