-- ==== Sys2Proof/Laws/Ops.lean ====
section
/-!
SUPPORT. What each shared operation can do, said once: cite these instead of unfolding the operation.
-/

namespace Sys2Proof.Machine

/-! ### Requests -/

theorem takeAnswer_some {s t : State} {c : Nat} (h : takeAnswer s = some (c, t)) :
    ∃ a rest, s.link.answers = a :: rest ∧ c = a.count ∧
      t = { s with link.inbound := s.link.inbound ++ a.arrived, link.answers := rest } := by
  unfold takeAnswer at h
  split at h
  · cases h
  · rename_i a rest ha
    cases h
    exact ⟨a, rest, ha, rfl, rfl⟩

theorem takeAnswer_none {s : State} : takeAnswer s = none ↔ s.link.answers = [] := by
  unfold takeAnswer
  split <;> simp_all

theorem takeAnswer_cons {s : State} {a : Answer} {rest : List Answer} (h : s.link.answers = a :: rest) :
    takeAnswer s =
      some (a.count, { s with link.inbound := s.link.inbound ++ a.arrived, link.answers := rest }) := by
  unfold takeAnswer
  simp [h]

/-- `TWrite` (20_memory.md R63). -/
theorem tWrite_some {s t : State} {f : List Byte} {c : Nat} (h : tWrite f s = some (c, t)) :
    ∃ a rest, s.link.answers = a :: rest ∧ c = min a.count f.length ∧
      t = { s with
            link := ⟨s.link.inbound ++ a.arrived, s.link.outbound ++ f.take c, rest⟩
            trace := s.trace ++ [.wrote f c] } := by
  unfold tWrite at h
  split at h
  · cases h
  · rename_i c' s' h'
    obtain ⟨a, rest, ha, rfl, rfl⟩ := takeAnswer_some h'
    cases h
    exact ⟨a, rest, ha, rfl, rfl⟩

theorem tWrite_none {s : State} {f : List Byte} : tWrite f s = none ↔ s.link.answers = [] := by
  rw [← takeAnswer_none]
  unfold tWrite
  split <;> simp_all

theorem tWrite_cons {s : State} {f : List Byte} {a : Answer} {rest : List Answer}
    (h : s.link.answers = a :: rest) :
    tWrite f s = some (min a.count f.length, { s with
      link := ⟨s.link.inbound ++ a.arrived, s.link.outbound ++ f.take (min a.count f.length), rest⟩
      trace := s.trace ++ [.wrote f (min a.count f.length)] }) := by
  unfold tWrite
  rw [takeAnswer_cons h]
  rfl

/-- `TAvail` (20_memory.md R65): never more than the stream holds, and it takes nothing. -/
theorem tAvail_some {s t : State} {n : Nat} (h : tAvail s = some (n, t)) :
    ∃ a rest, s.link.answers = a :: rest ∧ n = min a.count (s.link.inbound ++ a.arrived).length ∧
      t = { s with
            link := ⟨s.link.inbound ++ a.arrived, s.link.outbound, rest⟩
            trace := s.trace ++ [.polled n] } := by
  unfold tAvail at h
  split at h
  · cases h
  · rename_i c' s' h'
    obtain ⟨a, rest, ha, rfl, rfl⟩ := takeAnswer_some h'
    cases h
    exact ⟨a, rest, ha, rfl, rfl⟩

theorem tAvail_none {s : State} : tAvail s = none ↔ s.link.answers = [] := by
  rw [← takeAnswer_none]
  unfold tAvail
  split <;> simp_all

theorem tAvail_cons {s : State} {a : Answer} {rest : List Answer} (h : s.link.answers = a :: rest) :
    tAvail s = some (min a.count (s.link.inbound ++ a.arrived).length, { s with
      link := ⟨s.link.inbound ++ a.arrived, s.link.outbound, rest⟩
      trace := s.trace ++ [.polled (min a.count (s.link.inbound ++ a.arrived).length)] }) := by
  unfold tAvail
  rw [takeAnswer_cons h]
  rfl

/-- `TRead(n)` (20_memory.md R64): the front of the stream, at most `n` bytes of it, is taken off. -/
theorem tRead_some {s t : State} {n : Nat} {bs : List Byte} (h : tRead n s = some (bs, t)) :
    ∃ a rest, s.link.answers = a :: rest ∧ bs = (s.link.inbound ++ a.arrived).take (min a.count n) ∧
      t = { s with
            link := ⟨(s.link.inbound ++ a.arrived).drop (min a.count n), s.link.outbound, rest⟩
            trace := s.trace ++ [.read n bs] } := by
  unfold tRead at h
  split at h
  · cases h
  · rename_i c' s' h'
    obtain ⟨a, rest, ha, rfl, rfl⟩ := takeAnswer_some h'
    cases h
    exact ⟨a, rest, ha, rfl, rfl⟩

theorem tRead_none {s : State} {n : Nat} : tRead n s = none ↔ s.link.answers = [] := by
  rw [← takeAnswer_none]
  unfold tRead
  split <;> simp_all

theorem tRead_cons {s : State} {n : Nat} {a : Answer} {rest : List Answer} (h : s.link.answers = a :: rest) :
    tRead n s = some ((s.link.inbound ++ a.arrived).take (min a.count n), { s with
      link := ⟨(s.link.inbound ++ a.arrived).drop (min a.count n), s.link.outbound, rest⟩
      trace := s.trace ++ [.read n ((s.link.inbound ++ a.arrived).take (min a.count n))] }) := by
  unfold tRead
  rw [takeAnswer_cons h]
  rfl

theorem tRead_length_le {s t : State} {n : Nat} {bs : List Byte} (h : tRead n s = some (bs, t)) :
    bs.length ≤ n := by
  obtain ⟨a, rest, _, rfl, _⟩ := tRead_some h
  simp only [List.length_take]
  omega

/-- What a `SinkWrite` does when the sink takes it (20_memory.md R67). -/
theorem sinkWrite_some {s t : State} {bs : List Byte} (h : sinkWrite bs s = some t) :
    bs.length ≤ s.sinkReady ∧ t = sinkTakes bs s := by
  unfold sinkWrite at h
  split at h
  · rename_i hl
    exact ⟨hl, by simpa using h.symm⟩
  · cases h

theorem sinkWrite_ready {s : State} {bs : List Byte} (h : bs.length ≤ s.sinkReady) :
    sinkWrite bs s = some (sinkTakes bs s) := if_pos h

theorem sinkWrite_none {s : State} {bs : List Byte} : sinkWrite bs s = none ↔ s.sinkReady < bs.length := by
  simp [sinkWrite]

/-- Resuming from a yield (10_state.md R26). -/
theorem resume_some {s t : State} (h : resume s = some t) :
    (s.yld.req = false ∧ t = s) ∨
    (s.yld.req = true ∧ ∃ k, s.yld.acks = k + 1 ∧ t = { s with yld := ⟨false, s.yld.ms, k⟩ }) := by
  unfold resume at h
  split at h
  · rename_i hr
    split at h
    · cases h
    · rename_i k hk
      cases h
      exact .inr ⟨hr, k, hk, rfl⟩
  · cases h
    exact .inl ⟨by simp_all, rfl⟩

theorem resume_none {s : State} : resume s = none ↔ s.yld.req = true ∧ s.yld.acks = 0 := by
  unfold resume
  split
  · split <;> simp_all
  · simp_all

theorem resume_free {s : State} (h : s.yld.req = false) : resume s = some s := by
  unfold resume
  simp [h]

/-! ### Traces -/

theorem writesIn_append (a b : List Event) : writesIn (a ++ b) = writesIn a + writesIn b := by
  induction a with
  | nil => simp [writesIn]
  | cons e a ih => cases e <;> simp [writesIn, ih, Nat.add_assoc]

theorem pollsIn_append (a b : List Event) : pollsIn (a ++ b) = pollsIn a + pollsIn b := by
  induction a with
  | nil => simp [pollsIn]
  | cons e a ih => cases e <;> simp [pollsIn, ih, Nat.add_assoc]

theorem yieldsIn_append (a b : List Event) : yieldsIn (a ++ b) = yieldsIn a + yieldsIn b := by
  induction a with
  | nil => simp [yieldsIn]
  | cons e a ih => cases e <;> simp [yieldsIn, ih, Nat.add_assoc]

theorem readIn_append (a b : List Event) : readIn (a ++ b) = readIn a ++ readIn b := by
  induction a with
  | nil => simp [readIn]
  | cons e a ih => cases e <;> simp [readIn, ih]

theorem sinkOf_append (a b : List Event) : sinkOf (a ++ b) = sinkOf a ++ sinkOf b := by
  induction a with
  | nil => simp [sinkOf]
  | cons e a ih => cases e <;> simp [sinkOf, ih]

/-! ### The header and dispatch -/

theorem decodeHeader_some {b : List Byte} {h : ResponseHeader} (e : decodeHeader b = some h) :
    ∃ b0 b1 b2 b3 b4 b5, b = [b0, b1, b2, b3, b4, b5] ∧ h = ⟨b0, b1, le32 b2 b3 b4 b5⟩ := by
  unfold decodeHeader at e
  split at e
  · cases e
    exact ⟨_, _, _, _, _, _, rfl, rfl⟩
  · cases e

theorem decodeHeader_none {b : List Byte} : decodeHeader b = none ↔ b.length ≠ 6 := by
  unfold decodeHeader
  split
  · simp
  · rename_i h
    simp only [true_iff]
    intro hl
    match b, hl with
    | [b0, b1, b2, b3, b4, b5], _ => exact h _ _ _ _ _ _ rfl

/-- Dispatch (42_executor.md R167). -/
theorem dispatch_cases (s : State) :
    (s.cmd.dec = .none ∧ dispatch s = finish .ok s) ∨
    (s.cmd.dec ≠ .none ∧ s.cmd.dec ≠ .exec ∧ dispatch s = { s with phase := .fixed }) ∨
    (s.cmd.dec = .exec ∧ dispatch s = { s with phase := .exSub }) := by
  unfold dispatch
  cases s.cmd.dec <;> simp

/-- What a full header leads to (42_executor.md R164, R167). -/
theorem takeHeader_cases (h : ResponseHeader) (s : State) :
    (h.syncByte ≠ s.params.sync ∧
      takeHeader h s = finish .badSync { s with hdr := ⟨h.syncByte, h.status, h.payloadLength⟩ }) ∨
    (h.syncByte = s.params.sync ∧ h.status ≠ 0 ∧
      takeHeader h s = finish .device { s with hdr := ⟨h.syncByte, h.status, h.payloadLength⟩ }) ∨
    (h.syncByte = s.params.sync ∧ h.status = 0 ∧
      takeHeader h s = enterDecoder { s with hdr := ⟨h.syncByte, h.status, h.payloadLength⟩ }) := by
  unfold takeHeader validate
  by_cases h1 : h.syncByte = s.params.sync
  · by_cases h2 : h.status = 0
    · exact .inr (.inr ⟨h1, h2, by simp only [ne_eq, h1, not_true_eq_false, if_false, h2]⟩)
    · exact .inr (.inl ⟨h1, h2, by simp only [ne_eq, h1, not_true_eq_false, if_false, h2, not_false_eq_true, if_true]⟩)
  · exact .inl ⟨h1, by simp only [ne_eq, h1, not_false_eq_true, if_true]⟩

/-! ### Turns: what each step can do -/

theorem Turn.outcome_next {t : Turn} {s s' : State} (h : t.outcome s = .next s') :
    t = .moves s' ∨ (t = .waits ∧ s' = s) := by
  cases t with
  | moves u => exact .inl (by simpa [Turn.outcome] using h)
  | waits => exact .inr ⟨rfl, by simpa [Turn.outcome] using h.symm⟩
  | refuses r => simp [Turn.outcome] at h

/-- The accept step (42_executor.md R158). -/
theorem idleTurn_moves {s t : State} (h : idleTurn s = .moves t) :
    ∃ c rest d, s.offers = c :: rest ∧ decoderOfCode c.dec = some d ∧ configReady d c.imgreq s.cfg = true ∧
      t = admitLength (latchCommand d c { s with offers := rest }) := by
  unfold idleTurn at h
  split at h
  · cases h
  · rename_i c rest hs
    split at h
    · cases h
    · rename_i d hd
      split at h
      · rename_i hc
        cases h
        exact ⟨c, rest, d, hs, hd, hc, rfl⟩
      · cases h

/-- The `SEND` step (42_executor.md R161). -/
theorem sendTurn_moves {s t : State} (h : sendTurn s = .moves t) :
    ∃ c u, tWrite (sendFrame s.params s.cmd) s = some (c, u) ∧
      ((c < cmdHdrLen + u.cmd.len.toNat ∧ t = finish .write u) ∨
       (cmdHdrLen + u.cmd.len.toNat ≤ c ∧ t = { u with tick := 0, phase := .wait })) := by
  unfold sendTurn at h
  split at h
  · cases h
  · rename_i c u hu
    split at h
    · rename_i hc
      cases h
      exact ⟨c, u, hu, .inl ⟨hc, rfl⟩⟩
    · rename_i hc
      cases h
      exact ⟨c, u, hu, .inr ⟨by omega, rfl⟩⟩

/-- An empty poll of the wait loop (41_poll.md R142). -/
theorem emptyWaitPoll_cases (s : State) :
    (s.shadow.maxWaitPolls.toNat ≤ (s.tick + 1).toNat ∧
      emptyWaitPoll s = finish .timeout { s with tick := s.tick + 1 }) ∨
    ((s.tick + 1).toNat < s.shadow.maxWaitPolls.toNat ∧
      emptyWaitPoll s =
        { yieldFor s.shadow.pollIntervalMs { s with tick := s.tick + 1 } with phase := .wait }) := by
  by_cases h : s.shadow.maxWaitPolls.toNat ≤ (s.tick + 1).toNat
  · exact .inl ⟨h, if_pos (decide_eq_true h)⟩
  · exact .inr ⟨by omega, if_neg (by simpa [pollBudgetSpent] using h)⟩

/-- The `WAIT` step (41_poll.md R142). -/
theorem waitTurn_moves {s t : State} (h : waitTurn s = .moves t) :
    ∃ u a v, resume s = some u ∧ tAvail u = some (a, v) ∧
      ((a > 0 ∧ t = { v with phase := .header }) ∨ (a = 0 ∧ t = emptyWaitPoll v)) := by
  unfold waitTurn at h
  split at h
  · cases h
  · rename_i u hu
    split at h
    · cases h
    · rename_i a v hv
      split at h
      · rename_i ha
        cases h
        exact ⟨u, a, v, hu, hv, .inl ⟨ha, rfl⟩⟩
      · rename_i ha
        cases h
        exact ⟨u, a, v, hu, hv, .inr ⟨by omega, rfl⟩⟩

/-- The `HEADER` step (42_executor.md R164). -/
theorem headerTurn_moves {s t : State} (h : headerTurn s = .moves t) :
    ∃ bs u, tRead rspHdrLen s = some (bs, u) ∧
      ((bs.length ≠ 6 ∧ t = finish .shortHeader u) ∨
       (∃ hd, decodeHeader bs = some hd ∧ bs.length = 6 ∧ t = takeHeader hd u)) := by
  unfold headerTurn at h
  split at h
  · cases h
  · rename_i bs u hu
    split at h
    · rename_i hd
      cases h
      exact ⟨bs, u, hu, .inl ⟨decodeHeader_none.mp hd, rfl⟩⟩
    · rename_i hd hh
      cases h
      refine ⟨bs, u, hu, .inr ⟨hd, hh, ?_, rfl⟩⟩
      obtain ⟨_, _, _, _, _, _, rfl, _⟩ := decodeHeader_some hh
      rfl

/-- The `FIXED` step (43_decoders.md R187). -/
theorem fixedTurn_moves {s t : State} (h : fixedTurn s = .moves t) :
    ∃ bs u, tRead (shapeLen s.cmd.dec) s = some (bs, u) ∧
      ((bs.length < shapeLen s.cmd.dec ∧ t = finish .shortRead u) ∨
       (bs.length = shapeLen s.cmd.dec ∧
        t = finish .ok { u with
          data.rb := latchBytes 19 u.freeIdx (shapeLen s.cmd.dec) bs, freeIdx := u.freeIdx + 1 })) := by
  unfold fixedTurn at h
  simp only at h
  split at h
  · cases h
  · rename_i bs u hu
    have hl := tRead_length_le hu
    split at h
    · rename_i hc
      cases h
      exact ⟨bs, u, hu, .inl ⟨hc, rfl⟩⟩
    · rename_i hc
      cases h
      exact ⟨bs, u, hu, .inr ⟨by omega, rfl⟩⟩

/-- The `EX_SUB` step (44_execute_image.md R216). -/
theorem exSubTurn_moves {s t : State} (h : exSubTurn s = .moves t) :
    ∃ bs u, tRead execSubhdrLen s = some (bs, u) ∧
      ((bs.length < execSubhdrLen ∧ t = finish .shortRead u) ∨
       (∃ body hand face r, bs = [body, hand, face, r] ∧
        t = { consume execSubhdrLen
                { u with data.bodyCount := body, data.handCount := hand, data.faceCount := face } with
              items := body, phase := .exBody })) := by
  unfold exSubTurn at h
  split at h
  · cases h
  · rename_i bs u hu
    have hl : bs.length ≤ 4 := tRead_length_le hu
    split at h
    · rename_i body hand face r
      cases h
      exact ⟨_, u, hu, .inr ⟨body, hand, face, r, rfl, rfl⟩⟩
    · rename_i hn
      cases h
      refine ⟨bs, u, hu, .inl ⟨?_, rfl⟩⟩
      rcases Nat.lt_or_ge bs.length 4 with hlt | hge
      · exact hlt
      · match bs, Nat.le_antisymm hl hge with
        | [a, b, c, d], _ => exact absurd rfl (hn a b c d)

/-- The `EX_BODY` step (44_execute_image.md R218). -/
theorem exBodyTurn_moves {s t : State} (h : exBodyTurn s = .moves t) :
    ((s.items = 0 ∨ s.params.bodyItemBytes = 0) ∧ t = { s with items := s.data.handCount, phase := .exHand }) ∨
    (s.items ≠ 0 ∧ s.params.bodyItemBytes ≠ 0 ∧
      ∃ bs u, tRead s.params.bodyItemBytes s = some (bs, u) ∧
        ((bs.length < s.params.bodyItemBytes ∧ t = finish .shortRead u) ∨
         (bs.length = s.params.bodyItemBytes ∧
          t = { consume s.params.bodyItemBytes u with items := u.items - 1, phase := .exBody }))) := by
  unfold exBodyTurn at h
  split at h
  · rename_i hz
    cases h
    exact .inl ⟨hz, rfl⟩
  · rename_i hz
    simp only [not_or] at hz
    refine .inr ⟨hz.1, hz.2, ?_⟩
    split at h
    · cases h
    · rename_i bs u hu
      have hl := tRead_length_le hu
      have hp : u.params = s.params := by obtain ⟨_, _, _, _, rfl⟩ := tRead_some hu; rfl
      rw [hp] at h
      split at h
      · rename_i hc
        cases h
        exact ⟨bs, u, hu, .inl ⟨hc, rfl⟩⟩
      · rename_i hc
        cases h
        exact ⟨bs, u, hu, .inr ⟨by omega, by simp⟩⟩

/-- The `EX_HAND` step (44_execute_image.md R219). -/
theorem exHandTurn_moves {s t : State} (h : exHandTurn s = .moves t) :
    ((s.items = 0 ∨ s.params.handItemBytes = 0) ∧ s.cmd.imgreq = true ∧ t = { s with phase := .imgDim }) ∨
    ((s.items = 0 ∨ s.params.handItemBytes = 0) ∧ s.cmd.imgreq = false ∧ t = finish .ok s) ∨
    (s.items ≠ 0 ∧ s.params.handItemBytes ≠ 0 ∧
      ∃ bs u, tRead s.params.handItemBytes s = some (bs, u) ∧
        ((bs.length < s.params.handItemBytes ∧ t = finish .shortRead u) ∨
         (bs.length = s.params.handItemBytes ∧
          t = { consume s.params.handItemBytes u with items := u.items - 1, phase := .exHand }))) := by
  unfold exHandTurn at h
  split at h
  · rename_i hz
    split at h
    · rename_i hi
      cases h
      exact .inl ⟨hz, hi, rfl⟩
    · rename_i hi
      cases h
      exact .inr (.inl ⟨hz, by simpa using hi, rfl⟩)
  · rename_i hz
    simp only [not_or] at hz
    refine .inr (.inr ⟨hz.1, hz.2, ?_⟩)
    split at h
    · cases h
    · rename_i bs u hu
      have hl := tRead_length_le hu
      have hp : u.params = s.params := by obtain ⟨_, _, _, _, rfl⟩ := tRead_some hu; rfl
      rw [hp] at h
      split at h
      · rename_i hc
        cases h
        exact ⟨bs, u, hu, .inl ⟨hc, rfl⟩⟩
      · rename_i hc
        cases h
        exact ⟨bs, u, hu, .inr ⟨by omega, by simp⟩⟩

/-- The dimensions are in (44_execute_image.md R222). -/
theorem takeDimensions_cases (w h : Word16) (s : State) :
    (mul16 w h = 0 ∧ takeDimensions w h s = finish .ok (dimensionsTaken w h s)) ∨
    (mul16 w h ≠ 0 ∧
      takeDimensions w h s = { dimensionsTaken w h s with retry := 0, phase := .imgStream }) := by
  by_cases hz : mul16 w h = 0
  · exact .inl ⟨hz, if_pos hz⟩
  · exact .inr ⟨hz, if_neg hz⟩

/-- The `IMG_DIM` step (44_execute_image.md R222). -/
theorem imgDimTurn_moves {s t : State} (h : imgDimTurn s = .moves t) :
    ∃ bs u, tRead imgDimLen s = some (bs, u) ∧
      ((bs.length < imgDimLen ∧ t = finish .shortRead u) ∨
       (∃ w0 w1 h0 h1, bs = [w0, w1, h0, h1] ∧ t = takeDimensions (b2i w0 w1) (b2i h0 h1) u)) := by
  unfold imgDimTurn at h
  split at h
  · cases h
  · rename_i bs u hu
    have hl : bs.length ≤ 4 := tRead_length_le hu
    split at h
    · rename_i w0 w1 h0 h1
      cases h
      exact ⟨_, u, hu, .inr ⟨w0, w1, h0, h1, rfl, rfl⟩⟩
    · rename_i hn
      cases h
      refine ⟨bs, u, hu, .inl ⟨?_, rfl⟩⟩
      rcases Nat.lt_or_ge bs.length 4 with hlt | hge
      · exact hlt
      · match bs, Nat.le_antisymm hl hge with
        | [a, b, c, d], _ => exact absurd rfl (hn a b c d)

/-- An empty poll of the drain (44_execute_image.md R224). -/
theorem emptyDrainPoll_cases (s : State) :
    (s.shadow.imgRetryCeil.toNat < (s.retry + 1).toNat ∧
      emptyDrainPoll s = finish .ok { s with retry := s.retry + 1, res.imgIncomplete := true }) ∨
    ((s.retry + 1).toNat ≤ s.shadow.imgRetryCeil.toNat ∧
      emptyDrainPoll s =
        { yieldFor s.shadow.pollIntervalMs { s with retry := s.retry + 1 } with phase := .imgStream }) := by
  by_cases h : s.shadow.imgRetryCeil.toNat < (s.retry + 1).toNat
  · exact .inl ⟨h, if_pos (decide_eq_true h)⟩
  · exact .inr ⟨by omega, if_neg (by simpa [retryCeilingExceeded] using h)⟩

/-- A chunk (44_execute_image.md R224). -/
theorem takeChunk_cases (k : Nat) (s : State) :
    ((chunkTaken k s).data.imgRem = 0 ∧ takeChunk k s = finish .ok (chunkTaken k s)) ∨
    ((chunkTaken k s).data.imgRem ≠ 0 ∧ takeChunk k s = { chunkTaken k s with phase := .imgStream }) := by
  by_cases hz : (chunkTaken k s).data.imgRem = 0
  · exact .inl ⟨hz, if_pos hz⟩
  · exact .inr ⟨hz, if_neg hz⟩

/-- The `IMG_STREAM` step (44_execute_image.md R224). -/
theorem imgStreamTurn_moves {s t : State} (h : imgStreamTurn s = .moves t) :
    ∃ u a v, resume s = some u ∧ tAvail u = some (a, v) ∧
      ((a = 0 ∧ t = emptyDrainPoll v) ∨
       (a > 0 ∧ ∃ bs w, tRead (chunkSize v.params v.data.imgRem a) v = some (bs, w) ∧
        ((bs = [] ∧ t = emptyDrainPoll w) ∨
         (bs ≠ [] ∧ ∃ x, sinkWrite bs w = some x ∧ t = takeChunk bs.length x)))) := by
  unfold imgStreamTurn at h
  split at h
  · cases h
  · rename_i u hu
    split at h
    · cases h
    · rename_i a v hv
      split at h
      · rename_i ha
        split at h
        · cases h
        · rename_i bs w hw
          split at h
          · rename_i hb
            split at h
            · cases h
            · rename_i x hx
              cases h
              exact ⟨u, a, v, hu, hv, .inr ⟨ha, bs, w, hw, .inr ⟨by rintro rfl; simp at hb, x, hx, rfl⟩⟩⟩
          · rename_i hb
            cases h
            refine ⟨u, a, v, hu, hv, .inr ⟨ha, bs, w, hw, .inl ⟨?_, rfl⟩⟩⟩
            cases bs with
            | nil => rfl
            | cons x xs => simp at hb
      · rename_i ha
        cases h
        exact ⟨u, a, v, hu, hv, .inl ⟨by omega, rfl⟩⟩

/-! ### The run loop -/

/-- Whatever every turn keeps, a run keeps. -/
theorem runUnit_keeps {P : State → Prop} (hP : ∀ s t, P s → unitTurn s = .moves t → P t)
    {stop : State → Bool} {fuel : Nat} {s t : State} (hs : P s) (h : runUnit stop fuel s = .next t) : P t := by
  induction fuel generalizing s with
  | zero => simp only [runUnit, Host.Outcome.next.injEq] at h; exact h ▸ hs
  | succ n ih =>
    simp only [runUnit] at h
    split at h
    · simp only [Host.Outcome.next.injEq] at h; exact h ▸ hs
    · split at h
      · simp only [Host.Outcome.next.injEq] at h; exact h ▸ hs
      · cases h
      · rename_i u hu
        exact ih (hP s u hs hu) h

/-! ### Fetching -/

/-- The word of `PHASE` decodes to that phase's step (10_state.md R39, R40). -/
def stepOfPhase (p : Phase) : Instr :=
  match p with
  | .idle => .stepIdle | .send => .stepSend | .wait => .stepWait | .header => .stepHeader
  | .fixed => .stepFixed | .exSub => .stepExSub | .exBody => .stepExBody | .exHand => .stepExHand
  | .imgDim => .stepImgDim | .imgStream => .stepImgStream

theorem decode_phaseWord (p : Params) (s : State) : decode p (phaseWord s) = .ok (stepOfPhase s.phase) := by
  unfold phaseWord
  cases s.phase <;> rfl

theorem exec_stepOfPhase (s : State) : exec (stepOfPhase s.phase) s = (unitTurn s).outcome s := by
  unfold unitTurn
  cases s.phase <;> rfl

end Sys2Proof.Machine
end

