-- ==== Sys2Proof/Laws/PerInstr.lean ====
section
/-!
SUPPORT. The family RowEncoding: every instruction's word carries the fixed bits that spec/opcode_table.json prints for its
row, under P_REF, with which the table's values are computed (30_encoding.md R93).
-/

namespace Sys2Proof.Laws.RowEncoding

open Sys2Proof

/-- The fixed field of a row: its format, the bytes the row numbers, the lowest fixed bit, and the value from there up. -/
structure Row where
  format : Format
  bytes : Nat
  lo : Nat
  fixed : Nat
  deriving DecidableEq, Repr

/-- The table's rows. -/
def row (i : Instr) : Row :=
  match i with
  | .getVersion _ _ => ⟨.cmdFrame, 4, 16, 0xFE00⟩
  | .setCameraAngle _ _ => ⟨.cmdFrame, 4, 16, 0xFE01⟩
  | .getCameraAngle _ _ => ⟨.cmdFrame, 4, 16, 0xFE02⟩
  | .execute _ _ _ => ⟨.cmdFrame, 4, 16, 0xFE04⟩
  | .setThreshold _ _ => ⟨.cmdFrame, 4, 16, 0xFE05⟩
  | .getThreshold _ _ => ⟨.cmdFrame, 4, 16, 0xFE06⟩
  | .setDetectionSize _ _ => ⟨.cmdFrame, 4, 16, 0xFE07⟩
  | .getDetectionSize _ _ => ⟨.cmdFrame, 4, 16, 0xFE08⟩
  | .setFaceAngle _ _ => ⟨.cmdFrame, 4, 16, 0xFE09⟩
  | .getFaceAngle _ _ => ⟨.cmdFrame, 4, 16, 0xFE0A⟩
  | .responseHeader _ _ _ => ⟨.respHeader, 6, 32, 0xFE00⟩
  | .decNone => ⟨.cmdDec, 1, 0, 0⟩
  | .decVersion => ⟨.cmdDec, 1, 0, 1⟩
  | .decCameraAngle => ⟨.cmdDec, 1, 0, 2⟩
  | .decThreshold => ⟨.cmdDec, 1, 0, 3⟩
  | .decDetsize => ⟨.cmdDec, 1, 0, 4⟩
  | .decFaceAngle => ⟨.cmdDec, 1, 0, 5⟩
  | .decExec => ⟨.cmdDec, 1, 0, 6⟩
  | .decReserved => ⟨.cmdDec, 1, 0, 7⟩
  | .stepIdle => ⟨.phase, 1, 0, 0⟩
  | .stepSend => ⟨.phase, 1, 0, 1⟩
  | .stepWait => ⟨.phase, 1, 0, 2⟩
  | .stepHeader => ⟨.phase, 1, 0, 3⟩
  | .stepFixed => ⟨.phase, 1, 0, 4⟩
  | .stepExSub => ⟨.phase, 1, 0, 5⟩
  | .stepExBody => ⟨.phase, 1, 0, 6⟩
  | .stepExHand => ⟨.phase, 1, 0, 7⟩
  | .stepImgDim => ⟨.phase, 1, 0, 8⟩
  | .stepImgStream => ⟨.phase, 1, 0, 9⟩
  | .cfgWriteMaxWaitPolls _ => ⟨.cfgSel, 1, 0, 0⟩
  | .cfgWritePollIntervalMs _ => ⟨.cfgSel, 1, 0, 1⟩
  | .cfgWriteImgRetryCeil _ => ⟨.cfgSel, 1, 0, 2⟩
  | .cfgSelReserved _ => ⟨.cfgSel, 1, 0, 3⟩

/-- Bytes as one number, the first leftmost (R93). -/
def number (bytes : List Byte) : Nat := bytes.foldl (fun n b => 256 * n + b.toNat) 0

/-- The table shows the response header of a valid response only. -/
def Shown (i : Instr) : Prop :=
  match i with
  | .responseHeader sync status _ => sync = Params.ref.sync ∧ status = 0
  | _ => True

/-- The instruction's word has its row's format and fixed bits. -/
def Statement (i : Instr) : Prop :=
  Shown i → (encode Params.ref i).format = (row i).format ∧
    number ((encode Params.ref i).bytes.take (row i).bytes) / 2 ^ (row i).lo = (row i).fixed

/-- The first four bytes of a frame, above the length field. -/
theorem command_fixed (opcode : Byte) (len : Word16) (payload : List Byte) :
    number ((frameBytes Params.ref.sync opcode len payload).take 4) / 2 ^ 16 = 0xFE00 + opcode.toNat := by
  have hl := (intIntoLsbMsb len).1.isLt
  have hm := (intIntoLsbMsb len).2.isLt
  simp only [frameBytes, number, Params.ref, List.cons_append, List.take_succ_cons, List.nil_append, List.take_zero,
    List.foldl_cons, List.foldl_nil]
  rw [show (0xFE : Byte).toNat = 254 from rfl]
  omega

theorem getVersion (len : Word16) (payload : List Byte) : Statement (.getVersion len payload) :=
  fun _ => ⟨rfl, command_fixed _ len payload⟩

theorem setCameraAngle (len : Word16) (payload : List Byte) : Statement (.setCameraAngle len payload) :=
  fun _ => ⟨rfl, command_fixed _ len payload⟩

theorem getCameraAngle (len : Word16) (payload : List Byte) : Statement (.getCameraAngle len payload) :=
  fun _ => ⟨rfl, command_fixed _ len payload⟩

theorem execute (len : Word16) (payload : List Byte) (imgreq : Bool) : Statement (.execute len payload imgreq) :=
  fun _ => ⟨rfl, command_fixed _ len payload⟩

theorem setThreshold (len : Word16) (payload : List Byte) : Statement (.setThreshold len payload) :=
  fun _ => ⟨rfl, command_fixed _ len payload⟩

theorem getThreshold (len : Word16) (payload : List Byte) : Statement (.getThreshold len payload) :=
  fun _ => ⟨rfl, command_fixed _ len payload⟩

theorem setDetectionSize (len : Word16) (payload : List Byte) : Statement (.setDetectionSize len payload) :=
  fun _ => ⟨rfl, command_fixed _ len payload⟩

theorem getDetectionSize (len : Word16) (payload : List Byte) : Statement (.getDetectionSize len payload) :=
  fun _ => ⟨rfl, command_fixed _ len payload⟩

theorem setFaceAngle (len : Word16) (payload : List Byte) : Statement (.setFaceAngle len payload) :=
  fun _ => ⟨rfl, command_fixed _ len payload⟩

theorem getFaceAngle (len : Word16) (payload : List Byte) : Statement (.getFaceAngle len payload) :=
  fun _ => ⟨rfl, command_fixed _ len payload⟩

theorem responseHeader (sync status : Byte) (length : Word32) : Statement (.responseHeader sync status length) := by
  rintro ⟨rfl, rfl⟩
  have h0 := (length.setWidth 8).isLt
  have h1 := ((length >>> 8).setWidth 8).isLt
  have h2 := ((length >>> 16).setWidth 8).isLt
  have h3 := ((length >>> 24).setWidth 8).isLt
  refine ⟨rfl, ?_⟩
  simp only [encode, encodeHeader, row, number, Params.ref, List.take_succ_cons, List.take_zero, List.foldl_cons,
    List.foldl_nil]
  rw [show (0xFE : Byte).toNat = 254 from rfl, show (0 : Byte).toNat = 0 from rfl]
  omega

theorem decNone : Statement .decNone := fun _ => ⟨rfl, rfl⟩

theorem decVersion : Statement .decVersion := fun _ => ⟨rfl, rfl⟩

theorem decCameraAngle : Statement .decCameraAngle := fun _ => ⟨rfl, rfl⟩

theorem decThreshold : Statement .decThreshold := fun _ => ⟨rfl, rfl⟩

theorem decDetsize : Statement .decDetsize := fun _ => ⟨rfl, rfl⟩

theorem decFaceAngle : Statement .decFaceAngle := fun _ => ⟨rfl, rfl⟩

theorem decExec : Statement .decExec := fun _ => ⟨rfl, rfl⟩

theorem decReserved : Statement .decReserved := fun _ => ⟨rfl, rfl⟩

theorem stepIdle : Statement .stepIdle := fun _ => ⟨rfl, rfl⟩

theorem stepSend : Statement .stepSend := fun _ => ⟨rfl, rfl⟩

theorem stepWait : Statement .stepWait := fun _ => ⟨rfl, rfl⟩

theorem stepHeader : Statement .stepHeader := fun _ => ⟨rfl, rfl⟩

theorem stepFixed : Statement .stepFixed := fun _ => ⟨rfl, rfl⟩

theorem stepExSub : Statement .stepExSub := fun _ => ⟨rfl, rfl⟩

theorem stepExBody : Statement .stepExBody := fun _ => ⟨rfl, rfl⟩

theorem stepExHand : Statement .stepExHand := fun _ => ⟨rfl, rfl⟩

theorem stepImgDim : Statement .stepImgDim := fun _ => ⟨rfl, rfl⟩

theorem stepImgStream : Statement .stepImgStream := fun _ => ⟨rfl, rfl⟩

theorem cfgWriteMaxWaitPolls (wdata : Word32) : Statement (.cfgWriteMaxWaitPolls wdata) :=
  fun _ => ⟨rfl, by simp [encode, row, number]⟩

theorem cfgWritePollIntervalMs (wdata : Word32) : Statement (.cfgWritePollIntervalMs wdata) :=
  fun _ => ⟨rfl, by simp [encode, row, number]⟩

theorem cfgWriteImgRetryCeil (wdata : Word32) : Statement (.cfgWriteImgRetryCeil wdata) :=
  fun _ => ⟨rfl, by simp [encode, row, number]⟩

theorem cfgSelReserved (wdata : Word32) : Statement (.cfgSelReserved wdata) :=
  fun _ => ⟨rfl, by simp [encode, row, number]⟩

end Sys2Proof.Laws.RowEncoding
end

