-- ==== Sys2Proof/Laws/Step.lean ====
section
/-!
SUPPORT. What one step of the machine can do, said once, and the induction over it.
-/

namespace Sys2Proof.Machine

/-! ### A decoder's row -/

theorem invokeDecoder_chosen {d : Decoder} {s : State} (h : s.cmd.dec = d) :
    invokeDecoder d s = runUntilIdle (enterDecoder s) := if_pos h

theorem invokeDecoder_other {d : Decoder} {s : State} (h : s.cmd.dec ≠ d) : invokeDecoder d s = .next s := if_neg h

/-! ### Instructions by their channel -/

/-- The instructions a channel's word can bring: a command, a response header, a configuration access. -/
inductive ChannelInstr : Instr → Prop where
  | command (k : CommandKind) (len : Word16) (payload : List Byte) (imgreq : Bool) :
      ChannelInstr (k.instr len payload imgreq)
  | header (sync status : Byte) (length : Word32) : ChannelInstr (.responseHeader sync status length)
  | maxWaitPolls (v : Word32) : ChannelInstr (.cfgWriteMaxWaitPolls v)
  | pollIntervalMs (v : Word32) : ChannelInstr (.cfgWritePollIntervalMs v)
  | imgRetryCeil (v : Word32) : ChannelInstr (.cfgWriteImgRetryCeil v)
  | reserved (v : Word32) : ChannelInstr (.cfgSelReserved v)

theorem decodeCommand_channel {p : Params} {bytes : List Byte} {side : Word32} {i : Instr}
    (h : decodeCommand p bytes side = .ok i) : ChannelInstr i := by
  unfold decodeCommand at h
  split at h
  · split at h
    · cases h
    · split at h
      · cases h
      · unfold decodeOperands at h
        split at h
        · cases h
        · split at h
          · cases h
          · split at h
            · cases h
            · cases h
              exact .command ..
  · cases h

theorem decode_channel {p : Params} {w : PortWord} {i : Instr} (h : decode p w = .ok i)
    (hd : w.format ≠ .cmdDec) (hp : w.format ≠ .phase) : ChannelInstr i := by
  unfold decode at h
  split at h
  · exact decodeCommand_channel h
  · unfold noSide at h
    split at h
    · unfold decodeResponse at h
      split at h
      · cases h
        exact .header ..
      · split at h <;> cases h
    · cases h
  · contradiction
  · contradiction
  · unfold oneByte at h
    split at h
    · cases h
    · simp only [decodeSelector] at h
      split at h <;> cases h
      · exact .maxWaitPolls _
      · exact .pollIntervalMs _
      · exact .imgRetryCeil _
      · exact .reserved _
    · cases h

/-- A command's meaning is its presentation. -/
theorem exec_command (k : CommandKind) (len : Word16) (payload : List Byte) (imgreq : Bool) (s : State) :
    exec (k.instr len payload imgreq) s =
      presentCommand (commandOf s.params k len payload (if k = .execute then imgreq else false)) s := by
  cases k <;> rfl

/-! ### The induction -/

/-- A property that every move of an agent and every turn of the unit keeps. -/
structure Kept (P : State → Prop) : Prop where
  tail : ∀ s m rest, P s → s.agenda = m :: rest → P { s with agenda := rest }
  turn : ∀ s t, P s → unitTurn s = .moves t → P t
  offer : ∀ s c, P s → P (offerCommand c s)
  answers : ∀ s l, P s → P { s with link.answers := l }
  acks : ∀ s n, P s → P { s with yld.acks := n }
  sink : ∀ s n, P s → P { s with sinkReady := n }
  deliver : ∀ s bs, P s → P (deliverBytes bs s)
  flush : ∀ s, P s → P (flushInbound s)
  select : ∀ s sel, P s → P (selectConfig sel s)
  maxWaitPolls : ∀ s v, P s → P (writeMaxWaitPolls v s)
  pollIntervalMs : ∀ s v, P s → P (writePollIntervalMs v s)
  imgRetryCeil : ∀ s v, P s → P (writeImgRetryCeil v s)
  reset : ∀ s, P s → P (resetUnit s)

theorem Kept.outcome {P : State → Prop} (K : Kept P) {s t : State} (hs : P s)
    (h : (unitTurn s).outcome s = .next t) : P t := by
  rcases Turn.outcome_next h with h | ⟨_, rfl⟩
  · exact K.turn s t hs h
  · exact hs

theorem Kept.channel {P : State → Prop} (K : Kept P) {i : Instr} (hi : ChannelInstr i) {s t : State} (hs : P s)
    (h : exec i s = .next t) : P t := by
  cases hi with
  | command k len payload imgreq =>
    rw [exec_command] at h
    exact runUnit_keeps K.turn (K.offer _ _ hs) h
  | header sync status length =>
    change execResponseHeader sync status length s = .next t at h
    unfold execResponseHeader at h
    split at h
    · rename_i hp
      have hk := K.answers s (⟨encodeHeader sync status length, rspHdrLen⟩ :: s.link.answers) hs
      rcases Turn.outcome_next h with h | ⟨_, rfl⟩
      · refine K.turn _ t hk ?_
        unfold unitTurn
        simpa [hp] using h
      · exact hs
    · cases h
      exact K.deliver s _ hs
  | maxWaitPolls v => cases h; exact K.maxWaitPolls _ v (K.select s 0 hs)
  | pollIntervalMs v => cases h; exact K.pollIntervalMs _ v (K.select s 1 hs)
  | imgRetryCeil v => cases h; exact K.imgRetryCeil _ v (K.select s 2 hs)
  | reserved v => cases h; exact K.select s 3 hs

/-- Every step keeps a property that the moves and turns keep, over an agenda of the agents' own moves. -/
theorem step_keeps {P : State → Prop} (K : Kept P) {s t : State} (hs : P s) (hx : AgendaExternal s)
    (h : step s = .next t) : P t := by
  have phase : ∀ u, P u → (match decode u.params (phaseWord u) with
      | .ok i => exec i u | .error e => .fault (.undecodable e)) = .next t → P t := by
    intro u hu hh
    rw [decode_phaseWord] at hh
    simp only [exec_stepOfPhase] at hh
    exact K.outcome hu hh
  unfold step fetch at h
  split at h <;> rename_i hf
  · split at hf
    · cases hf
    · cases hf
    · cases hf
    · rename_i m rest _ _ hag
      cases hf
      cases h
      have ht := K.tail s m rest hs hag
      cases m with
      | unit => exact ht
      | word w => exact ht
      | offer c => exact K.offer _ c ht
      | cfgRead sel => exact K.select _ sel ht
      | answer a => exact K.answers _ _ ht
      | ack => exact K.acks _ _ ht
      | sinkReady n => exact K.sink _ _ ht
      | deliver bs => exact K.deliver _ bs ht
      | flush => exact K.flush _ ht
      | rst => exact K.reset _ ht
  · split at hf
    · cases hf
      exact phase _ hs h
    · rename_i rest hag
      cases hf
      exact phase _ (K.tail s _ rest hs hag) h
    · rename_i rest hag
      cases hf
      have hw := hx (.word _) (hag ▸ List.mem_cons_self)
      simp only [Move.external, Bool.and_eq_true, bne_iff_ne, ne_eq] at hw
      split at h
      · rename_i i hi
        exact K.channel (decode_channel hi hw.1 hw.2) (K.tail s _ rest hs hag) h
      · cases h
    · cases hf

end Sys2Proof.Machine
end

