-- ==== Sys2Proof/Tests/Slice0.lean ====
section
/-!
SUPPORT. Tests of one step each, on small states. Expected values are hand calculations from the rules, or a vector `V<n>`
of 95_test_vectors.md where a comment names one. The last part shows, for each statement with hypotheses, that they are met.
-/

namespace Sys2Proof.Tests

open Sys2Proof Sys2Proof.Machine

/-! ### Helpers -/

/-- The next state, if there is one. -/
def after (o : Host.Outcome State Fault Refusal) : Option State :=
  match o with
  | .next s => some s
  | _ => none

/-- The refusal, if there is one. -/
def refusal (o : Host.Outcome State Fault Refusal) : Option Refusal :=
  match o with
  | .refused r => some r
  | _ => none

/-- The fault, if there is one. -/
def fault (o : Host.Outcome State Fault Refusal) : Option Fault :=
  match o with
  | .fault f => some f
  | _ => none

/-- The row a word decodes to under P_REF. -/
def row (f : Format) (bytes : List Byte) (side : Word32) : Option Instr :=
  match decode Params.ref ⟨f, bytes, side⟩ with
  | .ok i => some i
  | .error _ => none

/-- Why a word is rejected under P_REF. -/
def rejection (f : Format) (bytes : List Byte) (side : Word32) : Option DecodeError :=
  match decode Params.ref ⟨f, bytes, side⟩ with
  | .ok _ => none
  | .error e => some e

/-- An answer with all the transport has. -/
def full : Answer := ⟨[], 99⟩

/-- After reset, the configuration written (3 polls, 100 ms, ceiling 2), the sink ready for 99 beats. -/
def ready : State := { State.reset with cfg := ⟨3, 100, 2, true, true, true, 0⟩, sinkReady := 99 }

/-- The transport of 95_test_vectors.md with these bytes and this many requests to answer. -/
def plain (n : Nat) (bytes : List Byte) : State := { ready with link := ⟨bytes, [], List.replicate n full⟩ }

/-- A command in flight, in a phase, with a decoder. -/
def flying (p : Phase) (d : Decoder) (answers : List Answer) (bytes : List Byte) : State :=
  { ready with
    phase := p
    cmd := ⟨0x04, 1, Vector.replicate 28 7, d, true⟩
    shadow := ⟨3, 100, 2⟩
    hdr := ⟨0xFE, 0, 12⟩
    link := ⟨bytes, [], answers⟩ }

/-- Dispatch about to enter a decoder: `C_DEC` holds its code. -/
def called (d : Decoder) (n : Nat) (bytes : List Byte) : State := { plain n bytes with cmd.dec := d }

/-- An offered command. -/
def offered (len : Word16) (dec : BitVec 3) : Command := ⟨0x05, len, Vector.replicate 28 7, dec, false⟩

/-! ### Well-formedness: a term each check refuses -/

theorem test_wf_refuses_missing_payload (k : CommandKind) : ¬ (k.instr 1 [] false).WellFormed := by
  cases k <;> exact (by decide : ¬ PayloadFits 1 [])
theorem test_wf_refuses_extra_payload (k : CommandKind) : ¬ (k.instr 0 [7] false).WellFormed := by
  cases k <;> exact (by decide : ¬ PayloadFits 0 [7])
theorem test_wf_refuses_bytes_above_port : ¬ (Instr.execute 29 (List.replicate 29 7) true).WellFormed := by decide
theorem test_wf_admits_long_length : (Instr.execute 29 (List.replicate 28 7) true).WellFormed := by decide
theorem test_wf_refuses_equal_opcodes : ¬ { Params.ref with opExecute := 0x00 }.WellFormed := by decide
theorem test_wf_refuses_no_chunk : ¬ { Params.ref with chunkMax := 0 }.WellFormed := by decide
theorem test_wf_refuses_large_chunk : ¬ { Params.ref with chunkMax := 65536 }.WellFormed := by decide

/-! ### Decoding: words written out from the encoding tables (30_encoding.md R90, R91, R97, R105; 10_state.md R24, R40) -/

theorem test_decode_getVersion : row .cmdFrame [0xFE, 0x00, 0x00, 0x00] 0 = some (.getVersion 0 []) := by decide
theorem test_decode_setCameraAngle :
    row .cmdFrame [0xFE, 0x01, 0x01, 0x00, 0x5A] 0 = some (.setCameraAngle 1 [0x5A]) := by decide
theorem test_decode_getCameraAngle : row .cmdFrame [0xFE, 0x02, 0x00, 0x00] 0 = some (.getCameraAngle 0 []) := by decide
theorem test_decode_execute :
    row .cmdFrame [0xFE, 0x04, 0x03, 0x00, 0x05, 0x00, 0x01] 1 = some (.execute 3 [0x05, 0x00, 0x01] true) := by decide
theorem test_decode_setThreshold :
    row .cmdFrame [0xFE, 0x05, 0x02, 0x00, 0xF4, 0x01] 0 = some (.setThreshold 2 [0xF4, 0x01]) := by decide
theorem test_decode_getThreshold : row .cmdFrame [0xFE, 0x06, 0x00, 0x00] 0 = some (.getThreshold 0 []) := by decide
theorem test_decode_setDetectionSize :
    row .cmdFrame [0xFE, 0x07, 0x01, 0x00, 0x1E] 0 = some (.setDetectionSize 1 [0x1E]) := by decide
theorem test_decode_getDetectionSize :
    row .cmdFrame [0xFE, 0x08, 0x00, 0x00] 0 = some (.getDetectionSize 0 []) := by decide
theorem test_decode_setFaceAngle :
    row .cmdFrame [0xFE, 0x09, 0x02, 0x00, 0x00, 0x01] 0 = some (.setFaceAngle 2 [0x00, 0x01]) := by decide
theorem test_decode_getFaceAngle : row .cmdFrame [0xFE, 0x0A, 0x00, 0x00] 0 = some (.getFaceAngle 0 []) := by decide
/-- `le32(04, 2C, 01, 00) = 76804` (V3). -/
theorem test_decode_responseHeader :
    row .respHeader [0xFE, 0x02, 0x04, 0x2C, 0x01, 0x00] 0 = some (.responseHeader 0xFE 0x02 76804) := by decide
theorem test_decode_decoder_codes :
    [0, 1, 2, 3, 4, 5, 6, 7].map (fun b => row .cmdDec [b] 0) =
      [some .decNone, some .decVersion, some .decCameraAngle, some .decThreshold, some .decDetsize,
       some .decFaceAngle, some .decExec, some .decReserved] := by decide
theorem test_decode_phase_codes :
    [0, 1, 2, 3, 4, 5, 6, 7, 8, 9].map (fun b => row .phase [b] 0) =
      [some .stepIdle, some .stepSend, some .stepWait, some .stepHeader, some .stepFixed, some .stepExSub,
       some .stepExBody, some .stepExHand, some .stepImgDim, some .stepImgStream] := by decide
theorem test_decode_selectors :
    [0, 1, 2, 3].map (fun b => row .cfgSel [b] 7) =
      [some (.cfgWriteMaxWaitPolls 7), some (.cfgWritePollIntervalMs 7), some (.cfgWriteImgRetryCeil 7),
       some (.cfgSelReserved 7)] := by decide

theorem test_reject_foreign_opcode : rejection .cmdFrame [0xFE, 0x03, 0, 0] 0 = some (.unknownOpcode 0x03) := by decide
theorem test_reject_wrong_sync : rejection .cmdFrame [0x00, 0x00, 0, 0] 0 = some .badSync := by decide
theorem test_reject_missing_payload : rejection .cmdFrame [0xFE, 0x01, 1, 0] 0 = some .truncated := by decide
theorem test_reject_extra_payload : rejection .cmdFrame [0xFE, 0x00, 0, 0, 9] 0 = some .trailingBytes := by decide
theorem test_reject_imgreq_elsewhere : rejection .cmdFrame [0xFE, 0x00, 0, 0] 1 = some .sideSignals := by decide
theorem test_reject_phase_codes :
    [10, 15, 16].map (fun b => rejection .phase [b] 0) =
      [some .reservedPhase, some .reservedPhase, some .highBits] := by decide
theorem test_reject_high_bits :
    (rejection .cmdDec [8] 0, rejection .cfgSel [4] 0) = (some .highBits, some .highBits) := by decide

theorem test_table_words :
    [decodeTableWord 32 0xFE040000, decodeTableWord 48 0xFE00042C0100, decodeTableWord 4 9, decodeTableWord 3 6,
     decodeTableWord 2 2] =
      [some (.execute 0 [] false), some (.responseHeader 0xFE 0 76804), some .stepImgStream, some .decExec,
       some (.cfgWriteImgRetryCeil 0)] := by decide

/-- A frame placed after reset is accepted by the very next step. -/
theorem test_fetch_word :
    (after (step (State.reset.withFetchWord 32 0xFE040000))).map (fun t => (t.phase, t.cmd.opcode, t.cmd.dec)) =
      some (.send, 0x04, .exec) := by decide

/-! ### The codec -/

/-- V1. -/
theorem test_b2i : (b2i 0xF4 0x01, b2i 0x01 0xF4, b2i 0x00 0x80) = (500, 62465, 32768) := by decide
/-- V3. -/
theorem test_le32 : (le32 0x04 0x2C 0x01 0x00, le32 0 0 0 0x80) = (76804, 2147483648) := by decide
/-- V32. -/
theorem test_mul16 : (mul16 320 240, mul16 65535 65535) = (76800, 4294836225) := by decide
/-- V4. -/
theorem test_encode_header : encodeHeader 0xFE 0 0x12345678 = [0xFE, 0x00, 0x78, 0x56, 0x34, 0x12] := by decide
/-- V9. -/
theorem test_validate :
    [validate 0xFE ⟨0xFE, 0x02, 0⟩, validate 0xFE ⟨0x00, 0x01, 131326⟩, validate 0xFE ⟨0xFE, 0, 5⟩] =
      [.deviceError 2, .badSync, .valid] := by decide

/-! ### Commands -/

/-- V14. -/
theorem test_getVersion :
    (after (exec (.getVersion 0 []) (plain 4 [0xFE, 0, 0x13, 0, 0, 0, 0x48, 0x56, 0x43, 0x2D, 0x50, 0x32, 0x20, 0x20,
      0x20, 0x20, 0x20, 0x20, 1, 2, 3, 4, 0, 0, 0]))).map (fun t => (t.link.outbound, t.typedResult)) =
      some ([0xFE, 0, 0, 0], some (.version ⟨[0x48, 0x56, 0x43, 0x2D, 0x50, 0x32, 0x20, 0x20, 0x20, 0x20, 0x20, 0x20],
        1, 2, 3, [4, 0, 0, 0]⟩)) := by decide
/-- V12: three polls, two yields. -/
theorem test_getVersion_timeout :
    (after (exec (.getVersion 0 []) { plain 4 [] with yld := ⟨false, 0, 5⟩ })).map
      (fun t => (t.res.code, t.tick, t.trace)) =
      some (.timeout, 3, [.wrote [0xFE, 0, 0, 0] 4, .polled 0, .yielded 100, .polled 0, .yielded 100, .polled 0]) := by
  decide
/-- V15. -/
theorem test_setCameraAngle :
    (after (exec (.setCameraAngle 1 [0x5A]) (plain 3 [0xFE, 2, 0, 0, 0, 0]))).map
      (fun t => (t.link.outbound, t.res.code, t.res.devStatus, t.res.dataValid)) =
      some ([0xFE, 1, 1, 0, 0x5A], .device, 2, false) := by decide
/-- V23: the bytes beyond the shape stay. -/
theorem test_getCameraAngle :
    (after (exec (.getCameraAngle 0 []) (plain 4 [0xFE, 0, 3, 0, 0, 0, 1, 0xAA, 0xBB]))).map
      (fun t => (t.typedResult, t.link.inbound)) = some (some (.cameraAngle 1), [0xAA, 0xBB]) := by decide
/-- V20. -/
theorem test_setThreshold :
    (after (exec (.setThreshold 8 [0xF4, 1, 0xF4, 1, 0xF4, 1, 0xF4, 1]) (plain 3 [0xFE, 0, 0, 0, 0, 0]))).map
      (fun t => (t.link.outbound, t.res.code, t.res.dataValid)) =
      some ([0xFE, 5, 8, 0, 0xF4, 1, 0xF4, 1, 0xF4, 1, 0xF4, 1], .ok, false) := by decide
/-- V8: no request at all. -/
theorem test_setThreshold_too_large :
    (after (exec (.setThreshold 29 (List.replicate 28 7)) (plain 3 []))).map
      (fun t => (t.res.code, t.phase, t.trace, t.link.outbound)) = some (.payloadTooLarge, .idle, [], []) := by decide
/-- V21. -/
theorem test_getThreshold :
    (after (exec (.getThreshold 0 []) (plain 4 [0xFE, 0, 8, 0, 0, 0, 1, 0, 0, 1, 0xFF, 0xFF, 0x34, 0x12]))).map
      (fun t => t.typedResult) = some (some (.threshold ⟨1, 256, 65535, 4660⟩)) := by decide
/-- V18. -/
theorem test_getThreshold_short :
    (after (exec (.getThreshold 0 []) (plain 4 [0xFE, 0, 8, 0, 0, 0, 0xF4, 1, 0xF4, 1, 0xF4]))).map
      (fun t => (t.res.code, t.typedResult, t.link.inbound)) = some (.shortRead, none, []) := by decide
theorem test_setDetectionSize :
    (after (exec (.setDetectionSize 2 [0x1E, 0x02]) (plain 3 [0xFE, 0, 0, 0, 0, 0, 9]))).map
      (fun t => (t.link.outbound, t.res.code, t.link.inbound)) =
      some ([0xFE, 7, 2, 0, 0x1E, 0x02], .ok, [9]) := by decide
/-- V22. -/
theorem test_getDetectionSize :
    (after (exec (.getDetectionSize 0 []) (plain 4 [0xFE, 0, 0xC, 0, 0, 0, 0x1E, 0, 0, 0x20, 0x28, 0, 0, 0x20, 0x40, 0,
      0, 0x20]))).map (fun t => t.typedResult) =
      some (some (.detectionSize ⟨30, 8192, 40, 8192, 64, 8192⟩)) := by decide
theorem test_setFaceAngle :
    (after (exec (.setFaceAngle 2 [0, 1]) (plain 3 [0xFE, 0, 0, 0, 0, 0]))).map
      (fun t => (t.link.outbound, t.res.code)) = some ([0xFE, 9, 2, 0, 0, 1], .ok) := by decide
/-- V31. -/
theorem test_getFaceAngle :
    (after (exec (.getFaceAngle 0 []) (plain 4 [0xFE, 0, 2, 0, 0, 0, 0x2D, 0x0F]))).map (fun t => t.typedResult) =
      some (some (.faceAngle 45 15)) := by decide
/-- V16: exactly six bytes consumed. -/
theorem test_getFaceAngle_bad_sync :
    (after (exec (.getFaceAngle 0 []) (plain 4 [0, 0, 2, 0, 0, 0, 0x11, 0x22]))).map
      (fun t => (t.res.code, t.hdr.sync, t.link.inbound)) = some (.badSync, 0, [0x11, 0x22]) := by decide
/-- V30: the drain is never entered. -/
theorem test_execute_without_image :
    (after (exec (.execute 3 [5, 0, 0] false) (plain 5 [0xFE, 0, 0x14, 0, 0, 0, 1, 0, 2, 0, 1, 2, 3, 4, 5, 6, 7, 8, 0xC0,
      0xC1]))).map (fun t => (t.typedResult, t.data.budgetLeft, t.link.inbound)) =
      some (some (.execution ⟨1, 0, 2, none⟩), 8, [0xC0, 0xC1]) := by decide
/-- V6, with a 2 x 2 image of which 3 bytes arrive and a ceiling of 2. -/
theorem test_execute_degraded :
    (after (exec (.execute 3 [4, 0, 1] true) { plain 10 [0xFE, 0, 0xC, 0, 0, 0, 0, 0, 1, 0, 2, 0, 2, 0, 5, 6, 7] with
      yld := ⟨false, 0, 5⟩ })).map (fun t => (t.typedResult, t.retry, t.data.imgRem, t.sink)) =
      some (some (.execution ⟨0, 0, 1, some ⟨2, 2, [5, 6, 7], false⟩⟩), 3, 1, [5, 6, 7]) := by decide

/-! ### The response header and the decoder codes -/

theorem test_responseHeader :
    (after (exec (.responseHeader 0xFE 0 12) (flying .header .exec [] []))).map
      (fun t => (t.phase, t.hdr.len, t.data.budgetLeft)) = some (.exSub, 12, 12) := by decide
theorem test_responseHeader_elsewhere :
    (after (exec (.responseHeader 1 2 3) (plain 0 [9]))).map (fun t => t.link.inbound) =
      some [9, 1, 2, 3, 0, 0, 0] := by decide
theorem test_decNone :
    (after (exec .decNone (called .none 1 [9]))).map (fun t => (t.res.code, t.res.dataValid, t.link.inbound)) =
      some (.ok, false, [9]) := by decide
theorem test_decVersion :
    (after (exec .decVersion (called .version 1 (List.replicate 20 5)))).map
      (fun t => (t.res.code, t.data.rb, t.link.inbound)) = some (.ok, Vector.replicate 19 5, [5]) := by decide
theorem test_decCameraAngle :
    (after (exec .decCameraAngle (called .cameraAngle 1 [8]))).map (fun t => t.typedResult) = some (some (.cameraAngle 8)) := by decide
theorem test_decThreshold :
    (after (exec .decThreshold (called .threshold 1 [1, 0, 0, 1, 0, 0, 0]))).map (fun t => t.res.code) = some .shortRead := by decide
theorem test_decDetsize :
    (after (exec .decDetsize (called .detsize 1 [1, 0, 2, 0, 3, 0, 4, 0, 5, 0, 6, 1]))).map (fun t => t.typedResult) =
      some (some (.detectionSize ⟨1, 2, 3, 4, 5, 262⟩)) := by decide
theorem test_decFaceAngle :
    (after (exec .decFaceAngle (called .faceAngle 1 [3, 0x80]))).map (fun t => t.typedResult) =
      some (some (.faceAngle 3 0x80)) := by decide
theorem test_decExec :
    (after (exec .decExec (called .exec 2 [0, 1, 9, 0xAA, 1, 2, 3, 4, 5, 6, 7, 8, 9]))).map
      (fun t => (t.typedResult, t.link.inbound, t.res.overBudget)) =
      some (some (.execution ⟨0, 1, 9, none⟩), [9], true) := by decide
/-- `C_DEC` holds another code: it stays (R27), and nothing happens. -/
theorem test_decoder_not_chosen :
    [Instr.decNone, .decVersion, .decCameraAngle, .decThreshold, .decDetsize, .decExec].map
      (fun i => after (exec i (called .faceAngle 1 [3, 0x80]))) =
      List.replicate 6 (some (called .faceAngle 1 [3, 0x80])) := by decide
theorem test_decReserved : refusal (exec .decReserved ready) = some .reservedDecoder := by decide

/-! ### The steps -/

theorem test_stepIdle :
    (after (exec .stepIdle { ready with offers := [offered 28 4] })).map (fun t => (t.phase, t.cmd.dec, t.shadow)) =
      some (.send, .detsize, ⟨3, 100, 2⟩) := by decide
theorem test_stepIdle_reserved :
    refusal (exec .stepIdle { ready with offers := [offered 0 7] }) = some .reservedDecoder := by decide
/-- V19. -/
theorem test_stepSend_short :
    (after (exec .stepSend (flying .send .none [⟨[], 3⟩] []))).map (fun t => (t.res.code, t.link.outbound)) =
      some (.write, [0xFE, 4, 1]) := by decide
theorem test_stepSend :
    (after (exec .stepSend (flying .send .none [⟨[], 5⟩] []))).map (fun t => (t.phase, t.link.outbound)) =
      some (.wait, [0xFE, 4, 1, 0, 7]) := by decide
theorem test_stepWait :
    (after (exec .stepWait (flying .wait .none [⟨[9], 1⟩] []))).map (fun t => (t.phase, t.tick, t.link.inbound)) =
      some (.header, 0, [9]) := by decide
theorem test_stepWait_empty :
    (after (exec .stepWait (flying .wait .none [⟨[9], 0⟩] []))).map (fun t => (t.phase, t.tick, t.yld.req)) =
      some (.wait, 1, true) := by decide
/-- V17. -/
theorem test_stepHeader_short :
    (after (exec .stepHeader (flying .header .none [full] [0xFE, 0, 0x13]))).map
      (fun t => (t.res.code, t.link.inbound, t.hdr)) = some (.shortHeader, [], ⟨0xFE, 0, 12⟩) := by decide
theorem test_stepHeader :
    (after (exec .stepHeader (flying .header .version [full] [0xFE, 0, 1, 2, 3, 4, 5]))).map
      (fun t => (t.phase, t.hdr.len, t.link.inbound)) = some (.fixed, 0x04030201, [5]) := by decide
theorem test_stepFixed :
    (after (exec .stepFixed (flying .fixed .faceAngle [full] [1, 2, 3]))).map
      (fun t => (t.res.code, t.data.rb.toList.take 2, t.link.inbound)) = some (.ok, [1, 2], [3]) := by decide
theorem test_stepExSub :
    (after (exec .stepExSub (flying .exSub .exec [full] [1, 2, 3, 4]))).map
      (fun t => (t.phase, t.items, t.data.bodyCount, t.data.handCount, t.data.faceCount)) =
      some (.exBody, 1, 1, 2, 3) := by decide
theorem test_stepExBody :
    (after (exec .stepExBody { flying .exBody .exec [full] [1, 2, 3, 4, 5, 6, 7, 8, 9] with items := 2 })).map
      (fun t => (t.phase, t.items, t.link.inbound)) = some (.exBody, 1, [9]) := by decide
theorem test_stepExHand :
    (after (exec .stepExHand (flying .exHand .exec [] []))).map (fun t => t.phase) = some .imgDim := by decide
/-- V36. -/
theorem test_stepImgDim_empty :
    (after (exec .stepImgDim (flying .imgDim .exec [full] [0, 0, 5, 0]))).map
      (fun t => (t.res.code, t.data.imgW, t.data.imgH, t.res.imgPresent, t.trace)) =
      some (.ok, 0, 5, true, [.read 4 [0, 0, 5, 0]]) := by decide
theorem test_stepImgDim :
    (after (exec .stepImgDim (flying .imgDim .exec [full] [2, 1, 3, 0]))).map
      (fun t => (t.phase, t.data.imgRem, t.retry)) = some (.imgStream, 774, 0) := by decide
theorem test_stepImgStream :
    (after (exec .stepImgStream { flying .imgStream .exec [full, full] [5, 6, 7] with data.imgRem := 2 })).map
      (fun t => (t.res.code, t.sink, t.link.inbound)) = some (.ok, [5, 6], [7]) := by decide
/-- V26, at the ceiling. -/
theorem test_stepImgStream_degraded :
    (after (exec .stepImgStream { flying .imgStream .exec [full] [] with data.imgRem := 2, retry := 2 })).map
      (fun t => (t.res.code, t.res.imgIncomplete, t.retry, t.data.imgRem)) = some (.ok, true, 3, 2) := by decide

/-! ### The configuration channel -/

/-- V33: the shadow stays. -/
theorem test_cfgWriteMaxWaitPolls :
    (after (exec (.cfgWriteMaxWaitPolls 0) (flying .wait .none [] []))).map
      (fun t => (t.cfg.maxWaitPolls, t.shadow.maxWaitPolls, t.cfgRdata)) = some (0, 3, 0) := by decide
theorem test_cfgWritePollIntervalMs :
    (after (exec (.cfgWritePollIntervalMs 7) State.reset)).map
      (fun t => (t.cfg.pollIntervalMs, t.cfg.pollIntervalMsWritten, t.cfg.maxWaitPollsWritten)) =
      some (7, true, false) := by decide
theorem test_cfgWriteImgRetryCeil :
    (after (exec (.cfgWriteImgRetryCeil 0xFFFFFFFF) ready)).map (fun t => t.cfgRdata) = some 0xFFFFFFFF := by decide
theorem test_cfgSelReserved :
    (after (exec (.cfgSelReserved 7) ready)).map (fun t => (t.cfg == ready.cfg, t.cfgRdata)) = some (true, 0) := by decide

/-! ### The hypotheses of the statements are met -/

/-- A host ready to present a command. -/
theorem ready_host (n : Nat) (bytes : List Byte) : HostReady (plain n bytes) := ⟨rfl, rfl, rfl, rfl, rfl, rfl⟩

/-- A plain queue of `n` answers is one of `n` requests, as long as it holds at most 99 bytes. -/
theorem plain_queue (n : Nat) (bytes : List Byte) (h : bytes.length ≤ 99) : PlainQueue n (plain n bytes) := by
  refine ⟨by simp [plain], fun a ha => ?_⟩
  obtain rfl : a = full := List.eq_of_mem_replicate ha
  exact ⟨rfl, h, by decide⟩

theorem test_met_DecodeEncodeRoundTrip :
    Params.ref.WellFormed ∧ (Instr.execute 28 (List.replicate 28 9) true).WellFormed ∧
      (Instr.getVersion 0 []).WellFormed ∧ (Instr.setThreshold 65535 (List.replicate 28 9)).WellFormed := by decide

theorem test_met_EncodeDecodeRoundTrip :
    row .cmdFrame ([0xFE, 0x05, 0x1D, 0x00] ++ List.replicate 28 9) 0 =
      some (.setThreshold 29 (List.replicate 28 9)) := by decide

theorem test_met_ForeignWordsRejected :
    0xFF ∉ Params.ref.opcodes ∧ (0x00 : Byte) ≠ Params.ref.sync ∧ 10 ≤ (10 : Byte).toNat ∧ (15 : Byte).toNat < 16 ∧
      (List.replicate 5 (0 : Byte)).length < 6 ∧ 6 < (List.replicate 7 (0 : Byte)).length := by decide

theorem test_met_FrameEncoding :
    (encodeFrame 0xFE 5 (List.replicate 28 9)).isSome = true ∧ encodeFrame 0xFE 5 (List.replicate 29 9) = none := by
  decide

theorem test_met_HeaderRoundTrip :
    decodeHeader [0xA5, 0, 7, 0, 0, 0] = some ⟨0xA5, 0, 7⟩ ∧ [0xA5, 0, 7, 0, 0, (0 : Byte)].length = 6 := by decide

theorem test_met_ResetValues : (offered 0 6).dec ≠ 7 ∧ (offered 0 0).dec ≠ 7 ∧
    refusal (exec .stepIdle { State.reset with offers := [offered 28 6] }) = some .configUnwritten := by decide

theorem test_met_ResetMoveKeepsTransport :
    (after (step { flying .wait .none [full] [9] with agenda := [.rst] })).map
      (fun t => (t.phase, t.link.inbound, t.cfg.maxWaitPollsWritten)) = some (.idle, [9], false) := by decide

theorem test_met_StepRunsDecodedInstruction :
    row .cfgSel [2] 9 = some (.cfgWriteImgRetryCeil 9) ∧ rejection .cmdFrame [] 0 = some .truncated ∧
      (row .phase [0] 0, row .phase [9] 0) = (some .stepIdle, some .stepImgStream) ∧
      fault (step { ready with agenda := [.word ⟨.cmdFrame, [], 0⟩] }) = some (.undecodable .truncated) ∧
      (after (step { ready with agenda := [.word ⟨.cfgSel, [2], 9⟩] })).map (fun t => t.cfg.imgRetryCeil) = some 9 ∧
      (after (step { flying .send .none [full] [] with agenda := [.unit] })).map (fun t => t.phase) = some .wait := by
  decide

theorem test_met_EnvironmentMovesOnly :
    let s := fun m => after (step { plain 0 [9] with agenda := [m] })
    (s (.offer (offered 0 0))).map (fun t => t.offers) = some [offered 0 0] ∧
      (s (.cfgRead 3)).map (fun t => t.cfgSel) = some 3 ∧
      (s (.answer full)).map (fun t => t.link.answers) = some [full] ∧
      (s .ack).map (fun t => t.yld.acks) = some 1 ∧
      (s (.sinkReady 2)).map (fun t => t.sinkReady) = some 101 ∧
      (s (.deliver [8])).map (fun t => t.link.inbound) = some [9, 8] ∧
      (s .flush).map (fun t => t.link.inbound) = some [] := by decide

theorem test_met_AcceptLatchesCommand :
    let s := { ready with offers := [offered 28 6] }
    s.phase = .idle ∧ s.offers = [offered 28 6] ∧ decoderOfCode (offered 28 6).dec = some .exec ∧
      configReady .exec (offered 28 6).imgreq s.cfg = true ∧ (offered 28 6).len.toNat ≤ 28 ∧
      (after (exec .stepIdle s)).map (fun t => t.phase) = some .send := by decide

theorem test_met_AcceptRejectsLongPayload :
    decoderOfCode (offered 29 0).dec = some .none ∧ configReady .none false ready.cfg = true ∧
      28 < (offered 29 0).len.toNat ∧ 28 < (offered 65535 0).len.toNat ∧
      (after (exec .stepIdle { ready with offers := [offered 29 0] })).map (fun t => (t.phase, t.res.code)) =
        some (.idle, .payloadTooLarge) := by decide

/-- Each register unwritten in turn; the ceiling unwritten where it is not asked for; the longest length and the next. -/
theorem test_met_AcceptNeedsConfiguration :
    (offered 28 6).dec ≠ 7 ∧
    [(⟨0, 0, 0, false, true, true, 0⟩, 0), (⟨0, 0, 0, true, false, true, 0⟩, 0), (⟨0, 0, 0, true, true, false, 0⟩, 6)].map
      (fun (c : ConfigRegs × BitVec 3) => refusal (exec .stepIdle
        { ready with cfg := c.1, offers := [{ offered 0 c.2 with imgreq := true }] })) =
      [some .configUnwritten, some .configUnwritten, some .configUnwritten] ∧
    (after (exec .stepIdle { ready with cfg := ⟨3, 100, 0, true, true, false, 0⟩, offers := [offered 28 6] })).map
      (fun t => (t.phase, t.shadow.maxWaitPolls, t.shadow.pollIntervalMs)) = some (.send, 3, 100) ∧
    (after (exec .stepIdle { ready with offers := [offered 29 6] })).map (fun t => (t.phase, t.shadow)) =
      some (.idle, ⟨3, 100, 2⟩) := by decide

theorem test_met_ReservedDecoderRefused : (offered 0 7).dec = 7 ∧ ready.phase = .idle := by decide

theorem test_met_OfferWaitsWhileBusy :
    (after (runUntilIdle (offerCommand (offered 0 0) (flying .wait .none [full, full] [0xFE, 0, 0, 0, 0, 0])))).map
      (fun t => (t.phase, t.offers.length, t.res.code)) = some (.idle, 1, .ok) := by decide

theorem test_met_SendStep :
    (flying .send .none [⟨[], 4⟩] []).phase = .send ∧ (flying .send .none [⟨[], 4⟩] []).cmd.len.toNat ≤ 28 ∧
      (flying .send .none [⟨[], 4⟩] []).link.answers = [⟨[], 4⟩] := by decide

/-- `TICK` at its largest value in `WAIT`, a yield outstanding and returned. -/
theorem test_met_WaitStep :
    let s := { flying .wait .none [⟨[], 0⟩] [9] with tick := 2, yld := ⟨true, 100, 1⟩ }
    s.phase = .wait ∧ s.link.answers = [⟨[], 0⟩] ∧ (s.yld.req = true → 0 < s.yld.acks) ∧
      s.tick.toNat < max s.shadow.maxWaitPolls.toNat 1 ∧
      (after (exec .stepWait s)).map (fun t => (t.res.code, t.tick, t.yld.acks)) = some (.timeout, 3, 0) := by decide

/-- Five bytes, and six. -/
theorem test_met_HeaderStep :
    (([9, 9, 9, 9, 9] : List Byte).take (min full.count 6)).length < 6 ∧
      ([9, 9, 9, 9, 9, 9, 8] : List Byte).take (min full.count 6) = [9, 9, 9, 9, 9, 9] ∧
      (after (exec .stepHeader (flying .header .exec [full] [9, 9, 9, 9, 9, 9, 8]))).map (fun t => t.res.code) =
        some .badSync := by decide

theorem test_met_FixedStep :
    (flying .fixed .cameraAngle [full] [7]).cmd.dec ≠ .none ∧ (flying .fixed .cameraAngle [full] [7]).cmd.dec ≠ .exec ∧
      (([7] : List Byte).take (min full.count (shapeLen .cameraAngle))).length = shapeLen .cameraAngle ∧
      (([] : List Byte).take (min full.count (shapeLen .cameraAngle))).length < shapeLen .cameraAngle := by decide

theorem test_met_ExSubStep :
    (after (exec .stepExSub (flying .exSub .exec [full] [1, 2, 3]))).map (fun t => t.res.code) = some .shortRead ∧
      ([1, 2, 3, 4] : List Byte).take (min full.count 4) = [1, 2, 3, 4] := by decide

/-- No block left; blocks of no bytes; the last block. -/
theorem test_met_ExBodyStep :
    (flying .exBody .exec [full] []).items = 0 ∧ { Params.ref with bodyItemBytes := 0 }.bodyItemBytes = 0 ∧
      (1 : Byte) ≠ 0 ∧ Params.ref.bodyItemBytes ≠ 0 ∧
      (after (exec .stepExBody { flying .exBody .exec [full] [1] with items := 1 })).map (fun t => t.res.code) =
        some .shortRead := by decide

theorem test_met_ExHandStep :
    Params.ref.handItemBytes ≠ 0 ∧
      (after (exec .stepExHand { flying .exHand .exec [full] [1, 2, 3, 4, 5, 6, 7, 8] with items := 1 })).map
        (fun t => (t.phase, t.items)) = some (.exHand, 0) := by decide

theorem test_met_ImgDimStep :
    (after (exec .stepImgDim (flying .imgDim .exec [full] [1, 2, 3]))).map (fun t => t.res.code) = some .shortRead ∧
      ([0xFF, 0xFF, 0xFF, 0xFF] : List Byte).take (min full.count 4) = [0xFF, 0xFF, 0xFF, 0xFF] := by decide

/-- `RETRY` at its largest value in `IMG_STREAM`; nothing ready; then bytes ready and a read that brings none; then a sink
ready for one beat less than the chunk, and for all of it. -/
theorem test_met_ImgStreamStep :
    let s := { flying .imgStream .exec [⟨[], 0⟩] [] with retry := 2, data.imgRem := 1, yld := ⟨true, 100, 1⟩ }
    let r := { s with link := ⟨[5], [], [⟨[], 1⟩, ⟨[], 0⟩]⟩, retry := 1 }
    let k := fun n => { flying .imgStream .exec [full, full] [5, 6, 7] with data.imgRem := 2, sinkReady := n }
    (s.yld.req = true → 0 < s.yld.acks) ∧ s.retry.toNat ≤ s.shadow.imgRetryCeil.toNat ∧
      (after (exec .stepImgStream s)).map (fun t => (t.phase, t.res.imgIncomplete)) = some (.idle, true) ∧
      (after (exec .stepImgStream r)).map (fun t => (t.phase, t.retry, t.yld.req)) = some (.imgStream, 2, true) ∧
      after (exec .stepImgStream (k 1)) = some (k 1) ∧
      (after (exec .stepImgStream (k 2))).map (fun t => (t.res.code, t.sink, t.sinkReady)) = some (.ok, [5, 6], 0) := by
  decide

theorem test_met_FinishPostsResult :
    (finish .device (flying .header .none [] [])).res.devStatus = 0 ∧
      (finish .ok (flying .fixed .version [] [])).res.dataValid = true := by decide

theorem test_met_ConsumeKeepsBudget :
    (consume 5 { ready with data.budgetLeft := 4 }).res.overBudget = true ∧
      (consume 4 { ready with data.budgetLeft := 4 }).res.overBudget = false := by decide

theorem test_met_StatusRegister :
    (flying .imgStream .exec [] []).status = 0b10011 ∧ ready.status = 0 := by decide

theorem test_met_ConfigurationReadBack :
    ((after (exec (.cfgWriteImgRetryCeil 9) (flying .wait .none [full, full] [0xFE, 0, 0, 0, 0, 0]))).bind
      (fun t => after (runUntilWaits t))).map (fun u => (u.phase, u.cfgRdata)) = some (.idle, 9) := by decide

theorem test_met_ResponseHeaderArrives :
    (flying .header .exec [] []).phase = .header ∧ (flying .header .exec [] []).link.inbound = [] ∧
      (flying .wait .exec [] []).phase ≠ .header ∧
      ([9, 8] ++ encodeHeader 0xFE 0 5).take 6 = [9, 8, 0xFE, 0, 5, 0] ∧
      (after (exec (.responseHeader 0xFE 0 5) (flying .header .exec [] [9, 8]))).map
        (fun t => (t.res.code, t.hdr, t.link.inbound)) = some (.badSync, ⟨9, 8, 0x000500FE⟩, [0, 0]) := by decide

theorem test_met_DecoderNoneCompletes :
    (called .none 0 []).cmd.dec = .none ∧ (called .exec 0 []).cmd.dec ≠ .none := by decide

theorem test_met_FixedDecodersComplete :
    (called .cameraAngle 1 [9]).cmd.dec = .cameraAngle ∧ (called .exec 1 [9]).cmd.dec ≠ .cameraAngle ∧
      (called .cameraAngle 1 [9]).link.answers = full :: [] ∧
      (([9] : List Byte).take (min full.count 1)).length = 1 ∧ (([9] : List Byte).take (min full.count 2)).length < 2 := by
  decide

/-- One body block, no hand block, exactly the answers needed, a declared length one short. -/
theorem test_met_ExecDecoderCompletes :
    let s := { called .exec 2 [1, 0, 3, 4, 1, 2, 3, 4, 5, 6, 7, 8, 9] with hdr.len := 11 }
    (called .none 0 []).cmd.dec ≠ .exec ∧ s.cmd.dec = .exec ∧ s.cmd.imgreq = false ∧ PlainQueue (1 + (1 : Byte).toNat + (0 : Byte).toNat) s ∧
      ([1, 2, 3, 4, 5, 6, 7, 8] : List Byte).length = (1 : Byte).toNat * s.params.bodyItemBytes ∧
      ([] : List Byte).length = (0 : Byte).toNat * s.params.handItemBytes ∧
      s.link.inbound = [1, 0, 3, 4] ++ [1, 2, 3, 4, 5, 6, 7, 8] ++ [] ++ [9] ∧
      (after (exec .decExec s)).map (fun t => (t.res.code, t.data.budgetLeft, t.res.overBudget)) =
        some (.ok, 0, true) :=
  ⟨by decide, rfl, rfl, ⟨by decide, by decide⟩, rfl, rfl, rfl, by decide⟩

/-- A 1 x 2 image after no block, one byte a chunk, exactly the answers needed, a declared length of all that is read. -/
theorem test_met_ExecDecoderWithImage :
    let p := called .exec 6 [0, 0, 3, 4, 1, 0, 2, 0, 0xA, 0xB, 9]
    let s := { p with cmd.imgreq := true, params.chunkMax := 1, hdr.len := 10, sinkReady := 2 }
    s.cmd.dec = .exec ∧ s.cmd.imgreq = true ∧ s.yld.req = false ∧ 1 ≤ s.params.chunkMax ∧
      PlainQueue (2 + (0 : Byte).toNat + (0 : Byte).toNat + 2 * 2) s ∧ ([0xA, 0xB] : List Byte).length ≤ s.sinkReady ∧
      ([0xA, 0xB] : List Byte).length = (b2i 1 0).toNat * (b2i 2 0).toNat ∧
      s.link.inbound = [0, 0, 3, 4] ++ [] ++ [] ++ [1, 0, 2, 0] ++ [0xA, 0xB] ++ [9] ∧
      (after (exec .decExec s)).map (fun t => (t.res.code, t.data.imgRem, t.sink, t.link.inbound, t.res.overBudget)) =
        some (.ok, 0, [0xA, 0xB], [9], false) :=
  ⟨rfl, rfl, rfl, by decide, ⟨by decide, by decide⟩, by decide, by decide, rfl, by decide⟩

/-- The longest payload. -/
theorem test_met_SetCommandsComplete :
    let s := plain 3 (encodeHeader Params.ref.sync 0 5 ++ [9])
    CommandKind.setFaceAngle ∈ [CommandKind.setCameraAngle, .setThreshold, .setDetectionSize, .setFaceAngle] ∧
      HostReady s ∧ PlainQueue 3 s ∧ (28 : Word16).toNat ≤ 28 ∧
      (List.replicate 28 (7 : Byte)).length = (28 : Word16).toNat ∧
      (after (exec (.setFaceAngle 28 (List.replicate 28 7)) s)).map (fun t => (t.res.code, t.link.inbound)) =
        some (.ok, [9]) :=
  ⟨by decide, ready_host _ _, plain_queue _ _ (by decide), by decide, rfl, by decide⟩

theorem test_met_GetCommandsReturnFields :
    let s := plain 4 (encodeHeader Params.ref.sync 0 0 ++ [3, 0x80] ++ [9])
    (∃ yaw roll : Byte, [3, 0x80] = [yaw, roll] ∧ TypedResponse.faceAngle 3 0x80 = .faceAngle yaw roll) ∧
      (∃ (model : List Byte) (major minor release : Byte) (revision : List Byte), model.length = 12 ∧
        revision.length = 4 ∧ List.replicate 19 5 = model ++ [major, minor, release] ++ revision) ∧
      HostReady s ∧ PlainQueue 4 s ∧ (0 : Word16).toNat ≤ 28 ∧ ([] : List Byte).length = (0 : Word16).toNat ∧
      (after (exec (.getFaceAngle 0 []) s)).map (fun t => (t.typedResult, t.link.inbound)) =
        some (some (.faceAngle 3 0x80), [9]) :=
  ⟨⟨3, 0x80, rfl, rfl⟩, ⟨List.replicate 12 5, 5, 5, 5, List.replicate 4 5, rfl, rfl, rfl⟩, ready_host _ _,
    plain_queue _ _ (by decide), by decide, rfl, by decide⟩

theorem test_met_ExecuteWithoutImage :
    let s := plain 5 (encodeHeader Params.ref.sync 0 12 ++ [0, 1, 3, 4] ++ [] ++ [1, 2, 3, 4, 5, 6, 7, 8] ++ [9])
    HostReady s ∧ PlainQueue (4 + (0 : Byte).toNat + (1 : Byte).toNat) s ∧
      ([1, 2, 3, 4, 5, 6, 7, 8] : List Byte).length = (1 : Byte).toNat * s.params.handItemBytes ∧
      (after (exec (.execute 0 [] false) s)).map (fun t => (t.typedResult, t.data.budgetLeft, t.res.overBudget)) =
        some (some (.execution ⟨0, 1, 3, none⟩), 0, false) :=
  ⟨ready_host _ _, plain_queue _ _ (by decide), rfl, by decide⟩

/-- A 2 x 1 image after one block, one byte a chunk, exactly the answers needed, a declared length one short. -/
theorem test_met_ExecuteWithImage :
    let p := plain 10 (encodeHeader Params.ref.sync 0 17 ++ [1, 0, 3, 4] ++ [1, 2, 3, 4, 5, 6, 7, 8] ++ [] ++
      [2, 0, 1, 0] ++ [0xA, 0xB] ++ [9])
    let s := { p with params.chunkMax := 1, sinkReady := 2 }
    HostReady s ∧ PlainQueue (5 + (1 : Byte).toNat + (0 : Byte).toNat + 2 * 2) s ∧
      ([0xA, 0xB] : List Byte).length ≤ s.sinkReady ∧ 1 ≤ s.params.chunkMax ∧
      ([0xA, 0xB] : List Byte).length = (b2i 2 0).toNat * (b2i 1 0).toNat ∧
      (after (exec (.execute 0 [] true) s)).map (fun t =>
        (t.typedResult, t.data.budgetLeft, t.res.overBudget, t.link.inbound, t.link.answers.length)) =
        some (some (.execution ⟨1, 0, 3, some ⟨2, 1, [0xA, 0xB], true⟩⟩), 0, true, [9], 0) :=
  ⟨⟨rfl, rfl, rfl, rfl, rfl, rfl⟩, ⟨by decide, by decide⟩, by decide, by decide, by decide, by decide⟩

/-- An empty image takes the answers up to the dimensions only. -/
theorem test_met_ExecuteWithImage_empty :
    (after (exec (.execute 0 [] true) (plain 5 (encodeHeader Params.ref.sync 0 8 ++ [0, 0, 0, 0] ++ [0, 0, 5, 0])))).map
      (fun t => (t.typedResult, t.res.overBudget)) =
      some (some (.execution ⟨0, 0, 0, some ⟨0, 5, [], true⟩⟩), false) := by decide

/-- The big-step function ends, and lacks an answer. -/
theorem test_met_CommandAgreesWithBigStep :
    let c := commandOf Params.ref .getCameraAngle 0 [] false
    let s := plain 4 [0xFE, 0, 1, 0, 0, 0, 3]
    s.phase = .idle ∧ s.offers = [] ∧ configReady (boundDecoder .getCameraAngle) false s.cfg = true ∧
      (bigExecute .cameraAngle c s).map (fun t => t.typedResult) = some (some (.cameraAngle 3)) ∧
      (bigExecute .cameraAngle c (plain 3 [0xFE, 0, 1, 0, 0, 0, 3])).isNone = true ∧
      (after (exec (.getCameraAngle 0 []) (plain 3 [0xFE, 0, 1, 0, 0, 0, 3]))).map (fun t => t.phase) =
        some .fixed := by decide

/-- A wrong sync byte with a nonzero status, and a right one with it. -/
theorem test_met_RejectedHeaderEndsCommand :
    HostReady (plain 3 (encodeHeader 0 1 2)) ∧ PlainQueue 3 (plain 3 (encodeHeader 0 1 2)) ∧
      (0 : Byte) ≠ Params.ref.sync ∧ (1 : Byte) ≠ 0 ∧
      (after (exec (.getVersion 0 []) (plain 3 (encodeHeader 0 1 2)))).map (fun t => t.res.code) = some .badSync ∧
      (after (exec (.getVersion 0 []) (plain 3 (encodeHeader 0xFE 1 2)))).map (fun t => (t.res.code, t.res.devStatus)) =
        some (.device, 1) :=
  ⟨ready_host _ _, plain_queue _ _ (by decide), by decide, by decide, by decide, by decide⟩

/-- `CFG_MAX_WAIT_POLLS` of 0 and of 3, with exactly the answers and returns needed (V10, V12). -/
theorem test_met_TimeoutPollCount :
    let zero : Answer := ⟨[8], 0⟩
    let sent : Answer := ⟨[], 32⟩
    let s := { ready with link := ⟨[], [], [sent, zero, zero, zero]⟩, yld := ⟨false, 0, 2⟩ }
    let z := { ready with cfg := ⟨0, 100, 2, true, true, true, 0⟩, link := ⟨[], [], [sent, zero]⟩ }
    HostReady s ∧ s.link.answers = sent :: [zero, zero, zero] ++ [] ∧ 32 ≤ sent.count ∧
      [zero, zero, zero].length = max s.cfg.maxWaitPolls.toNat 1 ∧ (∀ a ∈ [zero, zero, zero], a.count = 0) ∧
      [zero, zero, zero].length - 1 ≤ s.yld.acks ∧ HostReady z ∧ [zero].length = max z.cfg.maxWaitPolls.toNat 1 ∧
      (after (exec (.getVersion 0 []) s)).map (fun t => (t.res.code, t.tick, t.yld.acks, t.link.inbound)) =
        some (.timeout, 3, 0, [8, 8, 8]) ∧
      (after (exec (.getVersion 0 []) z)).map (fun t => (t.res.code, t.tick, pollsIn t.trace, yieldsIn t.trace)) =
        some (.timeout, 1, 1, 0) :=
  ⟨⟨rfl, rfl, rfl, rfl, rfl, rfl⟩, rfl, by decide, by decide, by decide, by decide, ⟨rfl, rfl, rfl, rfl, rfl, rfl⟩,
    by decide, by decide, by decide⟩

theorem test_met_WaitingExactly :
    Waiting ready ∧ Waiting { flying .wait .none [full] [] with yld := ⟨true, 100, 0⟩ } ∧
      Waiting (flying .imgStream .exec [full] [9]) ∧
      Waiting { flying .imgStream .exec [full, full] [9] with data.imgRem := 2, sinkReady := 0 } ∧ ¬ Waiting (flying .exBody .exec [] []) := by decide

theorem test_met_RunEndsWaiting :
    (after (runUntilWaits (flying .wait .none [full] [9]))).map (fun t => t.phase) = some .header := by decide

/-- A command waiting for the device, as the control invariant, the poll account, the byte account and the order of
requests describe it. -/
def waiting : State := { flying .wait .none [⟨[], 0⟩] [] with trace := [.wrote [0xFE, 4, 1, 0, 7] 5] }

theorem waiting_control : ControlInv waiting := by
  constructor <;> decide

theorem test_met_ControlInvKept :
    ControlInv waiting ∧ (after (step waiting)).map (fun t => (t.phase, t.tick)) = some (.wait, 1) :=
  ⟨waiting_control, by decide⟩

theorem test_met_PollInvKept : PollInv waiting ∧ (after (step waiting)).isSome = true :=
  ⟨⟨waiting_control, by decide, by decide, by decide, by decide, by decide⟩, by decide⟩

theorem test_met_ByteInvKept : ByteInv waiting ∧ (after (step waiting)).isSome = true :=
  ⟨⟨waiting_control, by decide, by decide, by decide, by decide, by simp [waiting],
    fun h => absurd h (by decide), by decide, by decide⟩, by decide⟩

/-- A short read as the byte account has it: five of the eight threshold bytes after a whole header. -/
theorem test_byteInv_short :
    (after (exec (.getThreshold 0 []) (plain 4 [0xFE, 0, 8, 0, 0, 0, 1, 2, 3, 4, 5]))).map
      (fun t => (t.res.code, t.trace.drop 2, readIn t.trace, consumedAtEnd t)) =
      some (.shortRead, [.read 6 [0xFE, 0, 8, 0, 0, 0], .read 8 [1, 2, 3, 4, 5]],
        [0xFE, 0, 8, 0, 0, 0, 1, 2, 3, 4, 5], (6, 13)) := by decide

theorem test_met_OrderInvKept : OrderInv waiting ∧ AgendaExternal waiting ∧ (after (step waiting)).isSome = true := by
  have unread : ∀ n bs, Event.read n bs ∉ waiting.trace := fun n bs h => by simp [waiting] at h
  refine ⟨⟨by decide, .inr ⟨_, _, [], rfl, rfl⟩, by decide, fun _ => unread,
    fun h => absurd h (by decide), ?_⟩, by decide, by decide⟩
  intro before n bs after h
  exact absurd (h ▸ by simp : Event.read n bs ∈ waiting.trace) (unread n bs)

/-- A stream with a chunk ready, and one at its ceiling. -/
theorem test_met_DrainProgress :
    let s := { flying .imgStream .exec [full, full] [5] with data.imgRem := 2, res.imgPresent := true }
    ControlInv s ∧ s.phase = .imgStream ∧
      (after (exec .stepImgStream s)).map (fun t => (t.phase, t.data.imgRem)) = some (.imgStream, 1) := by
  refine ⟨?_, rfl, by decide⟩
  constructor <;> decide

theorem test_met_FailureHasNoTypedResult :
    let s := { finish .device (flying .header .exec [] []) with cfgSel := 0 }
    ControlInv s ∧ s.res.valid = true ∧ s.res.code ≠ .ok := by
  refine ⟨?_, by decide, by decide⟩
  constructor <;> decide

theorem test_met_OutputsAppendOnly :
    (after (step (flying .send .none [full] []))).map (fun t => t.link.outbound) = some [0xFE, 4, 1, 0, 7] := by decide

theorem test_met_RegisterWriters :
    (flying .header .none [full] []).agenda = [] ∧
      (after (step (flying .header .none [full] [0xFE, 0, 7, 0, 0, 0]))).map (fun t => t.hdr.len) = some 7 := by decide

/-- A command in flight runs to its end, on 1 answer of 1. -/
theorem test_met_ConfigurationUnseenInFlight :
    (after (runUntilIdle (flying .fixed .faceAngle [full] [1, 2]))).map (fun t => t.res.code) = some .ok := by decide

theorem test_met_PayloadTailIgnored :
    (Vector.replicate 28 (8 : Byte)).toList.take (offered 0 0).len.toNat =
      (offered 0 0).payload.toList.take (offered 0 0).len.toNat := by decide

theorem test_met_ImageRequestUnseenElsewhere :
    (flying .header .version [full] []).cmd.dec ≠ .exec ∧
      (flying .header .version [full] []).phase.executing = false ∧
      (after (runUntilIdle (flying .header .version [full, full] (0xFE :: List.replicate 24 0)))).map
        (fun t => t.res.code) = some .ok := by decide

theorem test_met_BudgetChangesNoTransition :
    (after (runUntilIdle (flying .exSub .exec [full, full] [0, 0, 1, 0]))).map (fun t => t.phase) = some .idle := by
  decide

end Sys2Proof.Tests
end

section
/-!
PROOFS. The statements of 00_scope.md: what a step fetches and runs, and in which states the unit has no step.
-/

namespace Sys2Proof.Machine

/-! ### Fetching: which word a step runs -/

theorem fetch_nil {s : State} (h : s.agenda = []) : fetch s = .run (phaseWord s) s := by
  simp [fetch, h]

theorem fetch_unit {s : State} {rest : List Move} (h : s.agenda = .unit :: rest) :
    fetch s = .run (phaseWord s) { s with agenda := rest } := by
  simp [fetch, h]

theorem fetch_word {s : State} {w : PortWord} {rest : List Move} (h : s.agenda = .word w :: rest) :
    fetch s = .run w { s with agenda := rest } := by
  simp [fetch, h]

theorem step_of_decoded {s t : State} {w : PortWord} {i : Instr} (hf : fetch s = .run w t)
    (hd : decode t.params w = .ok i) : step s = exec i t := by
  simp [step, hf, hd]

theorem step_of_undecodable {s t : State} {w : PortWord} {e : DecodeError} (hf : fetch s = .run w t)
    (hd : decode t.params w = .error e) : step s = .fault (.undecodable e) := by
  simp [step, hf, hd]

/-! ### When a step of one request waits -/

theorem idleTurn_waits {s : State} : idleTurn s = .waits ↔ s.offers = [] := by
  unfold idleTurn
  split
  · simp [*]
  · next ho =>
    rw [ho]
    split
    · simp
    · split <;> simp

theorem sendTurn_waits {s : State} : sendTurn s = .waits ↔ s.link.answers = [] := by
  rw [← tWrite_none (f := sendFrame s.params s.cmd)]
  unfold sendTurn
  split
  · simp [*]
  · next hw => rw [hw]; split <;> simp

theorem headerTurn_waits {s : State} : headerTurn s = .waits ↔ s.link.answers = [] := by
  rw [← tRead_none (n := rspHdrLen)]
  unfold headerTurn
  split
  · simp [*]
  · next hr => rw [hr]; split <;> simp

theorem fixedTurn_waits {s : State} : fixedTurn s = .waits ↔ s.link.answers = [] := by
  rw [← tRead_none (n := shapeLen s.cmd.dec)]
  simp only [fixedTurn]
  split
  · simp [*]
  · next hr => rw [hr]; split <;> simp

theorem exSubTurn_waits {s : State} : exSubTurn s = .waits ↔ s.link.answers = [] := by
  rw [← tRead_none (n := execSubhdrLen)]
  unfold exSubTurn
  split
  · simp [*]
  · next hr => rw [hr]; split <;> simp

theorem imgDimTurn_waits {s : State} : imgDimTurn s = .waits ↔ s.link.answers = [] := by
  rw [← tRead_none (n := imgDimLen)]
  unfold imgDimTurn
  split
  · simp [*]
  · next hr => rw [hr]; split <;> simp

/-! ### When a block step waits: only if it has an item to ask for -/

theorem exBodyTurn_waits {s : State} :
    exBodyTurn s = .waits ↔ s.items ≠ 0 ∧ s.params.bodyItemBytes ≠ 0 ∧ s.link.answers = [] := by
  rw [← tRead_none (n := s.params.bodyItemBytes)]
  unfold exBodyTurn
  split
  · next hz => exact iff_of_false nofun (by tauto)
  · next hz =>
    obtain ⟨hitems, hbytes⟩ := not_or.mp hz
    split
    · next hr => exact iff_of_true rfl ⟨hitems, hbytes, hr⟩
    · next hr => rw [hr]; split <;> simp

theorem exHandTurn_waits {s : State} :
    exHandTurn s = .waits ↔ s.items ≠ 0 ∧ s.params.handItemBytes ≠ 0 ∧ s.link.answers = [] := by
  rw [← tRead_none (n := s.params.handItemBytes)]
  unfold exHandTurn
  split
  · next hz =>
    split <;> exact iff_of_false nofun (by tauto)
  · next hz =>
    obtain ⟨hitems, hbytes⟩ := not_or.mp hz
    split
    · next hr => exact iff_of_true rfl ⟨hitems, hbytes, hr⟩
    · next hr => rw [hr]; split <;> simp

/-! ### When a step that may have yielded waits -/

theorem resume_changes_yield_only {s u : State} (h : resume s = some u) : ∃ y, u = { s with yld := y } := by
  rcases resume_some h with ⟨_, rfl⟩ | ⟨_, _, _, rfl⟩
  · exact ⟨u.yld, rfl⟩
  · exact ⟨_, rfl⟩

theorem waitTurn_waits {s : State} :
    waitTurn s = .waits ↔ s.yld.req = true ∧ s.yld.acks = 0 ∨ s.link.answers = [] := by
  rw [← resume_none]
  unfold waitTurn
  split
  · simp [*]
  · next u hu =>
    obtain ⟨y, rfl⟩ := resume_changes_yield_only hu
    have hnone : tAvail { s with yld := y } = none ↔ s.link.answers = [] := tAvail_none
    rw [hu, ← hnone]
    split
    · simp [*]
    · next ha => rw [ha]; split <;> simp

/-- Moving a chunk of at most `n` bytes stops: the read is not answered, or it brings more bytes than the sink has beats
for (20_memory.md R64, R67). -/
def ChunkStops (n : Nat) (s : State) : Prop :=
  s.link.answers = [] ∨ ∃ b rest, s.link.answers = b :: rest ∧
    s.sinkReady < ((s.link.inbound ++ b.arrived).take (min b.count n)).length

theorem chunkStops_of_unread {n : Nat} {s : State} (h : tRead n s = none) : ChunkStops n s := .inl (tRead_none.mp h)

theorem chunkStops_iff_of_read {n : Nat} {s u : State} {bs : List Byte} (h : tRead n s = some (bs, u)) :
    ChunkStops n s ↔ sinkWrite bs u = none := by
  obtain ⟨b, rest, hq, rfl, rfl⟩ := tRead_some h
  simp [ChunkStops, hq, sinkWrite_none]

/-- A turn of the drain, with no yield outstanding, stops: the poll is not answered, or it finds bytes and the chunk
stops (44_execute_image.md R224). -/
def DrainStops (s : State) : Prop :=
  s.link.answers = [] ∨ ∃ a rest, s.link.answers = a :: rest ∧ 0 < a.count ∧ s.link.inbound ++ a.arrived ≠ [] ∧
    ChunkStops (chunkSize s.params s.data.imgRem (min a.count (s.link.inbound ++ a.arrived).length))
      { s with link := ⟨s.link.inbound ++ a.arrived, s.link.outbound, rest⟩ }

theorem drainStops_of_unpolled {s : State} (h : tAvail s = none) : DrainStops s := .inl (tAvail_none.mp h)

theorem drainStops_iff_of_polled {s v : State} {k : Nat} (h : tAvail s = some (k, v)) :
    DrainStops s ↔ 0 < k ∧ ChunkStops (chunkSize v.params v.data.imgRem k) v := by
  obtain ⟨a, rest, hq, rfl, rfl⟩ := tAvail_some h
  rw [lt_min_iff, List.length_pos_iff, and_assoc]
  simp [DrainStops, hq, ChunkStops]

theorem drainStops_iff_of_resumed {s u : State} (h : resume s = some u) : DrainStops s ↔ DrainStops u := by
  obtain ⟨y, rfl⟩ := resume_changes_yield_only h
  exact Iff.rfl

/-- A read that brings nothing never waits for the sink, so `IMG_STREAM` needs no clause for the empty chunk. -/
theorem imgStreamTurn_waits {s : State} :
    imgStreamTurn s = .waits ↔ s.yld.req = true ∧ s.yld.acks = 0 ∨ DrainStops s := by
  rw [← resume_none]
  unfold imgStreamTurn
  split
  · next hn => exact iff_of_true rfl (.inl hn)
  · next u hu =>
    rw [drainStops_iff_of_resumed hu, hu]
    split
    · next hn => exact iff_of_true rfl (.inr (drainStops_of_unpolled hn))
    · next k v hv =>
      rw [drainStops_iff_of_polled hv]
      split
      · next hk =>
        split
        · next hn => exact iff_of_true rfl (.inr ⟨hk, chunkStops_of_unread hn⟩)
        · next bs w hw =>
          rw [chunkStops_iff_of_read hw]
          split
          · split <;> simp [*]
          · next hb =>
            have hempty : sinkWrite bs w ≠ none := by
              rw [Ne, sinkWrite_none]
              omega
            simp [hempty]
      · next hk => simp [hk]

/-! ### The statements -/

/-- Settles O12: the word a step fetches, decoded with the machine's parameters, which fetching keeps. -/
theorem stepRunsDecodedInstruction : Obligations.StepRunsDecodedInstruction :=
  ⟨fun _ _ _ _ ha hd => step_of_decoded (fetch_word ha) hd,
    fun _ _ _ _ ha hd => step_of_undecodable (fetch_word ha) hd,
    fun _ _ hd => ⟨fun ha => step_of_decoded (fetch_nil ha) hd, fun _ ha => step_of_decoded (fetch_unit ha) hd⟩,
    fun s => (decode_phaseWord s.params s).trans (by cases s.phase <;> rfl)⟩

/-- Settles O45, phase by phase: each step waits exactly where what it asks another agent for has not come. -/
theorem waitingExactly : Obligations.WaitingExactly := by
  intro s
  unfold Waiting unitTurn
  cases s.phase with
  | idle => exact idleTurn_waits
  | send => exact sendTurn_waits
  | wait => exact waitTurn_waits
  | header => exact headerTurn_waits
  | fixed => exact fixedTurn_waits
  | exSub => exact exSubTurn_waits
  | exBody => exact exBodyTurn_waits
  | exHand => exact exHandTurn_waits
  | imgDim => exact imgDimTurn_waits
  | imgStream => exact imgStreamTurn_waits

end Sys2Proof.Machine
end

section
/-!
PROOFS. The control invariant (10_state.md R35 to R44): a command in flight, the registers each phase runs on, and that
every step keeps what `ControlInv` says of them.
-/

namespace Sys2Proof.Machine

/-! ### What the environment moves leave alone -/

/-- `ControlInv` does not speak of the channels, the streams, the configuration or the trace. -/
theorem ControlInv.frame {s : State} (h : ControlInv s) {agenda : List Move}
    (external : ∀ m ∈ agenda, m.external = true) {cfg : ConfigRegs} {cfgSel : BitVec 2} {offers : List Command}
    {link : LinkState} {sink : List Byte} {sinkReady acks freeIdx : Nat} {trace : List Event} :
    ControlInv { s with
      cfg := cfg, cfgSel := cfgSel, offers := offers, link := link, sink := sink, sinkReady := sinkReady,
      yld.acks := acks, agenda := agenda, trace := trace, freeIdx := freeIdx } :=
  { h with external := external }

/-! ### A command in flight -/

/-- What `ControlInv` says of a command in flight whatever its phase (10_state.md R35; 42_executor.md R158;
44_execute_image.md R220, R225). -/
def InFlight (s : State) : Prop :=
  AgendaExternal s ∧ s.res.valid = false ∧ s.cmd.len.toNat ≤ maxPayload ∧
    (s.res.imgPresent = true → s.cmd.dec = .exec ∧ s.cmd.imgreq = true) ∧ s.res.imgIncomplete = false

/-- The header registered was a valid one (40_codec.md R128). -/
def HeaderValid (s : State) : Prop := s.hdr.sync = s.params.sync ∧ s.hdr.status = 0

/-- What the step of a phase finds in the registers (10_state.md R41, R42; 42_executor.md R166, R167;
44_execute_image.md R220, R224); no command is in flight in IDLE. -/
def PhaseReady (p : Phase) (s : State) : Prop :=
  match p with
  | .idle => False
  | .send | .header => True
  | .wait => s.tick.toNat < max s.shadow.maxWaitPolls.toNat 1
  | .fixed => HeaderValid s ∧ s.cmd.dec ≠ .none ∧ s.cmd.dec ≠ .exec
  | .exSub | .exBody | .exHand => HeaderValid s ∧ s.cmd.dec = .exec
  | .imgDim => HeaderValid s ∧ s.cmd.dec = .exec ∧ s.cmd.imgreq = true
  | .imgStream =>
    HeaderValid s ∧ s.cmd.dec = .exec ∧ s.cmd.imgreq = true ∧ s.data.imgRem ≠ 0 ∧
      s.retry.toNat ≤ s.shadow.imgRetryCeil.toNat ∧ s.res.imgPresent = true

theorem ControlInv.inFlight {s : State} (h : ControlInv s) (hb : s.phase ≠ .idle) : InFlight s :=
  ⟨h.external, h.busy hb, h.admitted hb, h.imagePresent, Bool.eq_false_iff.mpr fun hi => hb (h.degraded hi).1⟩

theorem ControlInv.phaseReady {s : State} (h : ControlInv s) {p : Phase} (hp : s.phase = p) (hb : p ≠ .idle) :
    PhaseReady p s := by
  cases p with
  | idle => exact hb rfl
  | send => trivial
  | wait => exact h.ticks hp
  | header => trivial
  | fixed => exact ⟨h.validHeader (by rw [hp]; rfl), h.fixedShape hp⟩
  | exSub => exact ⟨h.validHeader (by rw [hp]; rfl), h.execShape (by rw [hp]; rfl)⟩
  | exBody => exact ⟨h.validHeader (by rw [hp]; rfl), h.execShape (by rw [hp]; rfl)⟩
  | exHand => exact ⟨h.validHeader (by rw [hp]; rfl), h.execShape (by rw [hp]; rfl)⟩
  | imgDim =>
    exact ⟨h.validHeader (by rw [hp]; rfl), h.execShape (by rw [hp]; rfl), h.imageAsked (by rw [hp]; rfl)⟩
  | imgStream =>
    exact ⟨h.validHeader (by rw [hp]; rfl), h.execShape (by rw [hp]; rfl), h.imageAsked (by rw [hp]; rfl),
      h.streaming hp⟩

/-- No yield is outstanding but in the two waiting phases. -/
theorem ControlInv.awake {s : State} (h : ControlInv s) (hw : s.phase ≠ .wait) (hi : s.phase ≠ .imgStream) :
    s.yld.req = false := by
  by_contra hreq
  rcases h.yields (by simpa using hreq) with hp | hp
  · exact hw hp
  · exact hi hp

/-- The unit at the start of its requests in a phase, with no yield outstanding. -/
structure AtWork (p : Phase) (s : State) : Prop where
  inFlight : InFlight s
  awake : s.yld.req = false
  ready : PhaseReady p s

theorem ControlInv.atWork {s : State} (h : ControlInv s) {p : Phase} (hp : s.phase = p) (hb : p ≠ .idle)
    (hw : p ≠ .wait) (hi : p ≠ .imgStream) : AtWork p s :=
  ⟨h.inFlight (hp ▸ hb), h.awake (hp ▸ hw) (hp ▸ hi), h.phaseReady hp hb⟩

/-- The two waiting phases: the scheduler has returned. -/
theorem ControlInv.atWork_of_resume {s u : State} (h : ControlInv s) {p : Phase} (hp : s.phase = p) (hb : p ≠ .idle)
    (hu : resume s = some u) : AtWork p u := by
  have fl := h.inFlight (hp ▸ hb)
  have ready := h.phaseReady hp hb
  rcases resume_some hu with ⟨hr, rfl⟩ | ⟨-, k, -, rfl⟩
  · exact ⟨fl, hr, ready⟩
  · exact ⟨fl, rfl, by cases p <;> exact ready⟩

/-! ### Requests to the transport -/

/-- `u` is `s` after a request of the transport, as far as the unit's registers go. -/
def Asked (s u : State) : Prop := ∃ link trace, u = { s with link := link, trace := trace }

theorem tWrite_asked {s u : State} {f : List Byte} {c : Nat} (h : tWrite f s = some (c, u)) : Asked s u := by
  obtain ⟨_, _, -, -, rfl⟩ := tWrite_some h
  exact ⟨_, _, rfl⟩

theorem tAvail_asked {s u : State} {n : Nat} (h : tAvail s = some (n, u)) : Asked s u := by
  obtain ⟨_, _, -, -, rfl⟩ := tAvail_some h
  exact ⟨_, _, rfl⟩

theorem tRead_asked {s u : State} {n : Nat} {bs : List Byte} (h : tRead n s = some (bs, u)) : Asked s u := by
  obtain ⟨_, _, -, -, rfl⟩ := tRead_some h
  exact ⟨_, _, rfl⟩

theorem AtWork.asked {p : Phase} {s u : State} (h : AtWork p s) (hu : Asked s u) : AtWork p u := by
  obtain ⟨link, trace, rfl⟩ := hu
  exact ⟨h.inFlight, h.awake, by cases p <;> exact h.ready⟩

/-! ### Going on and ending -/

theorem PhaseReady.validHeader {p : Phase} {s : State} (h : PhaseReady p s) (hp : p.decoding = true) :
    HeaderValid s := by
  cases p with
  | idle | send | wait | header => cases hp
  | fixed | exSub | exBody | exHand | imgDim | imgStream => exact h.1

/-- A command in flight goes on to a phase whose registers are in order. -/
theorem InFlight.enter {s : State} (h : InFlight s) {p : Phase} (hp : PhaseReady p s)
    (hy : s.yld.req = true → p = .wait ∨ p = .imgStream) : ControlInv { s with phase := p } := by
  obtain ⟨external, valid, admitted, present, incomplete⟩ := h
  exact {
    external, yields := hy, busy := fun _ => valid, admitted := fun _ => admitted, imagePresent := present
    ticks := by rintro rfl; exact hp
    validHeader := hp.validHeader
    fixedShape := by rintro rfl; exact hp.2
    execShape := by cases p <;> simp_all [PhaseReady, Phase.executing]
    imageAsked := by cases p <;> simp_all [PhaseReady, Phase.draining]
    streaming := by rintro rfl; exact hp.2.2.2
    degraded := fun hi => absurd (incomplete.symm.trans hi) nofun
    complete := fun hv => absurd (valid.symm.trans hv) nofun
    dataValid := fun hv => absurd (valid.symm.trans hv) nofun }

/-- A command in flight yields and stays in its waiting phase (20_memory.md R68). -/
theorem InFlight.yield {s : State} (h : InFlight s) {p : Phase} (hp : PhaseReady p s)
    (hw : p = .wait ∨ p = .imgStream) (ms : Word32) : ControlInv { yieldFor ms s with phase := p } :=
  InFlight.enter (s := yieldFor ms s) h (by cases p <;> exact hp) fun _ => hw

theorem AtWork.enter {p : Phase} {s : State} (h : AtWork p s) : ControlInv { s with phase := p } :=
  h.inFlight.enter h.ready fun hr => absurd (h.awake.symm.trans hr) nofun

/-- `finish` leaves the invariant where an image present is one that was asked for, and either complete or the
incomplete one of an `OK` (44_execute_image.md R225). -/
theorem finish_controlInv {s : State} {code : ResCode} (external : AgendaExternal s) (awake : s.yld.req = false)
    (present : s.res.imgPresent = true → s.cmd.dec = .exec ∧ s.cmd.imgreq = true)
    (degraded : s.res.imgIncomplete = true → s.res.imgPresent = true ∧ code = .ok ∧ s.data.imgRem ≠ 0)
    (complete : code = .ok → s.res.imgPresent = true → s.res.imgIncomplete = false → s.data.imgRem = 0) :
    ControlInv (finish code s) := by
  have data_kept : code = .ok → s.res.imgPresent = true → (finish code s).data = s.data := by
    intro hc hi
    simp [hc, (present hi).1, dataValidOf]
  exact {
    external, imagePresent := present
    yields := fun hr => absurd (awake.symm.trans hr) nofun
    busy := fun hb => absurd rfl hb
    admitted := fun hb => absurd rfl hb
    ticks := nofun, validHeader := nofun, fixedShape := nofun, execShape := nofun, imageAsked := nofun
    streaming := nofun
    degraded := fun hi => by
      obtain ⟨hpres, hc, hrem⟩ := degraded hi
      exact ⟨rfl, hpres, hc, by rwa [data_kept hc hpres]⟩
    complete := fun _ hc hpres hi => by
      rw [data_kept hc hpres]
      exact complete hc hpres hi
    dataValid := fun _ => rfl }

/-- A command in flight ends, with its image complete if it has one. -/
theorem InFlight.finish {s : State} (h : InFlight s) (awake : s.yld.req = false) {code : ResCode}
    (complete : code = .ok → s.res.imgPresent = true → s.data.imgRem = 0) : ControlInv (finish code s) := by
  obtain ⟨external, -, -, present, incomplete⟩ := h
  exact finish_controlInv external awake present (fun hi => absurd (incomplete.symm.trans hi) nofun)
    fun hc hpres _ => complete hc hpres

theorem AtWork.fail {p : Phase} {s : State} (h : AtWork p s) {code : ResCode} (hc : code ≠ .ok) :
    ControlInv (finish code s) :=
  h.inFlight.finish h.awake fun hok => absurd hok hc

/-- A command without an image asked for ends. -/
theorem AtWork.finish_imageless {p : Phase} {s : State} (h : AtWork p s) {code : ResCode}
    (hno : s.cmd.dec = .exec → s.cmd.imgreq = false) : ControlInv (finish code s) := by
  refine h.inFlight.finish h.awake fun _ hpres => ?_
  obtain ⟨-, -, -, present, -⟩ := h.inFlight
  obtain ⟨hd, hi⟩ := present hpres
  exact absurd ((hno hd).symm.trans hi) nofun

theorem InFlight.consume {s : State} (h : InFlight s) (k : Nat) : InFlight (consume k s) := by
  simpa [InFlight, AgendaExternal] using h

/-- No phase waits for the budget. -/
theorem phaseReady_consume {p : Phase} {k : Nat} {s : State} : PhaseReady p (consume k s) ↔ PhaseReady p s := by
  cases p <;> simp [PhaseReady, HeaderValid]

theorem AtWork.consume {p : Phase} {s : State} (h : AtWork p s) (k : Nat) : AtWork p (consume k s) :=
  ⟨h.inFlight.consume k, by simpa using h.awake, phaseReady_consume.mpr h.ready⟩

theorem AtWork.fillBuffer {s : State} (h : AtWork .fixed s) (rb : Vector Byte 19) (freeIdx : Nat) :
    AtWork .fixed { s with data.rb := rb, freeIdx := freeIdx } :=
  ⟨h.inFlight, h.awake, h.ready⟩

/-! ### The turns -/

theorem idleTurn_controlInv {s t : State} (h : ControlInv s) (hp : s.phase = .idle) (ht : idleTurn s = .moves t) :
    ControlInv t := by
  obtain ⟨c, rest, d, -, -, -, rfl⟩ := idleTurn_moves ht
  have awake : s.yld.req = false := h.awake (by simp [hp]) (by simp [hp])
  unfold admitLength
  split
  · exact finish_controlInv h.external awake nofun nofun nofun
  · next hl =>
    have latched : AtWork .send (latchCommand d c { s with offers := rest }) :=
      ⟨⟨h.external, rfl, Nat.le_of_not_lt hl, nofun, rfl⟩, awake, trivial⟩
    exact latched.enter

theorem sendTurn_controlInv {s t : State} (h : AtWork .send s) (ht : sendTurn s = .moves t) : ControlInv t := by
  obtain ⟨c, u, hu, hcase⟩ := sendTurn_moves ht
  have hw := h.asked (tWrite_asked hu)
  rcases hcase with ⟨-, rfl⟩ | ⟨-, rfl⟩
  · exact hw.fail nofun
  · have sent : AtWork .wait { u with tick := 0 } :=
      ⟨hw.inFlight, hw.awake, Nat.lt_of_lt_of_le Nat.zero_lt_one (Nat.le_max_right ..)⟩
    exact sent.enter

theorem emptyWaitPoll_controlInv {s : State} (h : AtWork .wait s) : ControlInv (emptyWaitPoll s) := by
  rcases emptyWaitPoll_cases s with ⟨-, he⟩ | ⟨hlt, he⟩ <;> rw [he]
  · exact InFlight.finish (s := { s with tick := s.tick + 1 }) h.inFlight h.awake nofun
  · have counted : PhaseReady .wait { s with tick := s.tick + 1 } := Nat.lt_of_lt_of_le hlt (Nat.le_max_left ..)
    exact InFlight.yield (s := { s with tick := s.tick + 1 }) h.inFlight counted (.inl rfl) _

theorem waitTurn_controlInv {s t : State} (h : ControlInv s) (hp : s.phase = .wait) (ht : waitTurn s = .moves t) :
    ControlInv t := by
  obtain ⟨u, a, v, hu, hv, hcase⟩ := waitTurn_moves ht
  have hw := (h.atWork_of_resume hp nofun hu).asked (tAvail_asked hv)
  rcases hcase with ⟨-, rfl⟩ | ⟨-, rfl⟩
  · exact AtWork.enter ⟨hw.inFlight, hw.awake, trivial⟩
  · exact emptyWaitPoll_controlInv hw

theorem enterDecoder_controlInv {s : State} (h : AtWork .header s) (hh : HeaderValid s) :
    ControlInv (enterDecoder s) := by
  have budgeted : AtWork .header { s with data.budgetLeft := s.hdr.len } := ⟨h.inFlight, h.awake, trivial⟩
  unfold enterDecoder
  rcases dispatch_cases { s with data.budgetLeft := s.hdr.len } with
    ⟨hd, he⟩ | ⟨hn, hx, he⟩ | ⟨hd, he⟩ <;> rw [he]
  · exact budgeted.finish_imageless fun hx => absurd (hd.symm.trans hx) nofun
  · exact AtWork.enter ⟨budgeted.inFlight, budgeted.awake, hh, hn, hx⟩
  · exact AtWork.enter ⟨budgeted.inFlight, budgeted.awake, hh, hd⟩

theorem takeHeader_controlInv {s : State} (h : AtWork .header s) (hd : ResponseHeader) :
    ControlInv (takeHeader hd s) := by
  have registered : AtWork .header { s with hdr := ⟨hd.syncByte, hd.status, hd.payloadLength⟩ } :=
    ⟨h.inFlight, h.awake, trivial⟩
  rcases takeHeader_cases hd s with ⟨-, he⟩ | ⟨-, -, he⟩ | ⟨hs, hst, he⟩ <;> rw [he]
  · exact registered.fail nofun
  · exact registered.fail nofun
  · exact enterDecoder_controlInv registered ⟨hs, hst⟩

theorem headerTurn_controlInv {s t : State} (h : AtWork .header s) (ht : headerTurn s = .moves t) :
    ControlInv t := by
  obtain ⟨bs, u, hu, hcase⟩ := headerTurn_moves ht
  have hw := h.asked (tRead_asked hu)
  rcases hcase with ⟨-, rfl⟩ | ⟨hd, -, -, rfl⟩
  · exact hw.fail nofun
  · exact takeHeader_controlInv hw hd

theorem fixedTurn_controlInv {s t : State} (h : AtWork .fixed s) (ht : fixedTurn s = .moves t) : ControlInv t := by
  obtain ⟨bs, u, hu, hcase⟩ := fixedTurn_moves ht
  have hw := h.asked (tRead_asked hu)
  rcases hcase with ⟨-, rfl⟩ | ⟨-, rfl⟩
  · exact hw.fail nofun
  · obtain ⟨-, -, hx⟩ := hw.ready
    exact (hw.fillBuffer _ _).finish_imageless fun hd => absurd hd hx

theorem exSubTurn_controlInv {s t : State} (h : AtWork .exSub s) (ht : exSubTurn s = .moves t) : ControlInv t := by
  obtain ⟨bs, u, hu, hcase⟩ := exSubTurn_moves ht
  have hw := h.asked (tRead_asked hu)
  rcases hcase with ⟨-, rfl⟩ | ⟨body, hand, face, -, -, rfl⟩
  · exact hw.fail nofun
  · have counted : AtWork .exBody { u with data.bodyCount := body, data.handCount := hand, data.faceCount := face } :=
      ⟨hw.inFlight, hw.awake, hw.ready⟩
    have taken := counted.consume execSubhdrLen
    exact AtWork.enter (s := { consume execSubhdrLen _ with items := body })
      ⟨taken.inFlight, taken.awake, taken.ready⟩

theorem exBodyTurn_controlInv {s t : State} (h : AtWork .exBody s) (ht : exBodyTurn s = .moves t) :
    ControlInv t := by
  rcases exBodyTurn_moves ht with ⟨-, rfl⟩ | ⟨-, -, bs, u, hu, hcase⟩
  · exact AtWork.enter (s := { s with items := s.data.handCount }) ⟨h.inFlight, h.awake, h.ready⟩
  · have hw := h.asked (tRead_asked hu)
    rcases hcase with ⟨-, rfl⟩ | ⟨-, rfl⟩
    · exact hw.fail nofun
    · have taken := hw.consume s.params.bodyItemBytes
      exact AtWork.enter (s := { consume _ u with items := u.items - 1 }) ⟨taken.inFlight, taken.awake, taken.ready⟩

theorem exHandTurn_controlInv {s t : State} (h : AtWork .exHand s) (ht : exHandTurn s = .moves t) :
    ControlInv t := by
  obtain ⟨hh, hd⟩ := h.ready
  rcases exHandTurn_moves ht with ⟨-, hi, rfl⟩ | ⟨-, hi, rfl⟩ | ⟨-, -, bs, u, hu, hcase⟩
  · exact AtWork.enter ⟨h.inFlight, h.awake, hh, hd, hi⟩
  · exact h.finish_imageless fun _ => hi
  · have hw := h.asked (tRead_asked hu)
    rcases hcase with ⟨-, rfl⟩ | ⟨-, rfl⟩
    · exact hw.fail nofun
    · have taken := hw.consume s.params.handItemBytes
      exact AtWork.enter (s := { consume _ u with items := u.items - 1 }) ⟨taken.inFlight, taken.awake, taken.ready⟩

/-- The dimensions of an image that was asked for are in the registers. -/
theorem dimensionsTaken_atWork {s : State} (h : AtWork .imgDim s) (w ht : Word16) :
    AtWork .imgDim (dimensionsTaken w ht s) := by
  obtain ⟨⟨external, valid, admitted, -, incomplete⟩, awake, hh, hd, hi⟩ := h
  refine ⟨⟨?_, ?_, ?_, fun _ => ⟨?_, ?_⟩, ?_⟩, ?_, ?_, ?_, ?_⟩ <;>
    simpa [dimensionsTaken, HeaderValid, AgendaExternal]

theorem takeDimensions_controlInv {s : State} (h : AtWork .imgDim s) (w ht : Word16) :
    ControlInv (takeDimensions w ht s) := by
  have taken := dimensionsTaken_atWork h w ht
  rcases takeDimensions_cases w ht s with ⟨hz, he⟩ | ⟨hnz, he⟩ <;> rw [he]
  · exact taken.inFlight.finish taken.awake fun _ _ => hz
  · obtain ⟨hh, hd, hi⟩ := taken.ready
    exact AtWork.enter (s := { dimensionsTaken w ht s with retry := 0 })
      ⟨taken.inFlight, taken.awake, hh, hd, hi, hnz, Nat.zero_le _, rfl⟩

theorem imgDimTurn_controlInv {s t : State} (h : AtWork .imgDim s) (ht : imgDimTurn s = .moves t) :
    ControlInv t := by
  obtain ⟨bs, u, hu, hcase⟩ := imgDimTurn_moves ht
  have hw := h.asked (tRead_asked hu)
  rcases hcase with ⟨-, rfl⟩ | ⟨w0, w1, h0, h1, -, rfl⟩
  · exact hw.fail nofun
  · exact takeDimensions_controlInv hw _ _

theorem emptyDrainPoll_controlInv {s : State} (h : AtWork .imgStream s) : ControlInv (emptyDrainPoll s) := by
  obtain ⟨hh, hd, hi, hrem, -, hpres⟩ := h.ready
  rcases emptyDrainPoll_cases s with ⟨-, he⟩ | ⟨hle, he⟩ <;> rw [he]
  · exact finish_controlInv h.inFlight.1 h.awake (fun _ => ⟨hd, hi⟩) (fun _ => ⟨hpres, rfl, hrem⟩) nofun
  · have counted : PhaseReady .imgStream { s with retry := s.retry + 1 } := ⟨hh, hd, hi, hrem, hle, hpres⟩
    exact InFlight.yield (s := { s with retry := s.retry + 1 }) h.inFlight counted (.inr rfl) _

/-- A chunk leaves `RETRY` or starts it at 0 (44_execute_image.md R224). -/
theorem chunkTaken_retry_le (k : Nat) (s : State) : (chunkTaken k s).retry.toNat ≤ s.retry.toNat := by
  simp only [chunkTaken]
  split <;> simp

theorem chunkTaken_inFlight {s : State} (h : InFlight s) (k : Nat) : InFlight (chunkTaken k s) :=
  InFlight.consume (s := { s with data.imgRem := s.data.imgRem - BitVec.ofNat 32 k }) h k

theorem takeChunk_controlInv {s : State} (h : AtWork .imgStream s) (k : Nat) : ControlInv (takeChunk k s) := by
  obtain ⟨hh, hd, hi, -, hle, hpres⟩ := h.ready
  have fl := chunkTaken_inFlight h.inFlight k
  have awake : (chunkTaken k s).yld.req = false := by simpa [chunkTaken] using h.awake
  have header : HeaderValid (chunkTaken k s) := by simpa [chunkTaken, HeaderValid] using hh
  rcases takeChunk_cases k s with ⟨hz, he⟩ | ⟨hnz, he⟩ <;> rw [he]
  · exact fl.finish awake fun _ _ => hz
  · have ceiling : (chunkTaken k s).retry.toNat ≤ (chunkTaken k s).shadow.imgRetryCeil.toNat :=
      (chunkTaken_retry_le k s).trans (by simpa [chunkTaken] using hle)
    exact AtWork.enter ⟨fl, awake, header, by simpa [chunkTaken] using hd, by simpa [chunkTaken] using hi, hnz,
      ceiling, by simpa [chunkTaken] using hpres⟩

theorem imgStreamTurn_controlInv {s t : State} (h : ControlInv s) (hp : s.phase = .imgStream)
    (ht : imgStreamTurn s = .moves t) : ControlInv t := by
  obtain ⟨u, a, v, hu, hv, hcase⟩ := imgStreamTurn_moves ht
  have polled := (h.atWork_of_resume hp nofun hu).asked (tAvail_asked hv)
  rcases hcase with ⟨-, rfl⟩ | ⟨-, bs, w, hw, hcase⟩
  · exact emptyDrainPoll_controlInv polled
  · have chunk := polled.asked (tRead_asked hw)
    rcases hcase with ⟨-, rfl⟩ | ⟨-, x, hx, rfl⟩
    · exact emptyDrainPoll_controlInv chunk
    · obtain ⟨-, rfl⟩ := sinkWrite_some hx
      have sunk : AtWork .imgStream (sinkTakes bs w) := ⟨chunk.inFlight, chunk.awake, chunk.ready⟩
      exact takeChunk_controlInv sunk _

theorem unitTurn_controlInv {s t : State} (h : ControlInv s) (ht : unitTurn s = .moves t) : ControlInv t := by
  revert ht
  unfold unitTurn
  cases hp : s.phase with
  | idle => exact idleTurn_controlInv h hp
  | send => exact sendTurn_controlInv (h.atWork hp nofun nofun nofun)
  | wait => exact waitTurn_controlInv h hp
  | header => exact headerTurn_controlInv (h.atWork hp nofun nofun nofun)
  | fixed => exact fixedTurn_controlInv (h.atWork hp nofun nofun nofun)
  | exSub => exact exSubTurn_controlInv (h.atWork hp nofun nofun nofun)
  | exBody => exact exBodyTurn_controlInv (h.atWork hp nofun nofun nofun)
  | exHand => exact exHandTurn_controlInv (h.atWork hp nofun nofun nofun)
  | imgDim => exact imgDimTurn_controlInv (h.atWork hp nofun nofun nofun)
  | imgStream => exact imgStreamTurn_controlInv h hp

/-! ### Reset, the environment, the statement -/

/-- Reset (10_state.md R52) leaves no command in flight, no result and no image. -/
theorem resetWith_controlInv (p : Params) : ControlInv (State.resetWith p) where
  external := nofun
  yields := nofun
  busy := fun hb => absurd rfl hb
  admitted := fun hb => absurd rfl hb
  ticks := nofun
  validHeader := nofun
  fixedShape := nofun
  execShape := nofun
  imageAsked := nofun
  streaming := nofun
  imagePresent := nofun
  degraded := nofun
  complete := nofun
  dataValid := nofun

theorem flushInbound_controlInv {s : State} (h : ControlInv s) : ControlInv (flushInbound s) := by
  unfold flushInbound
  split
  · exact h.frame h.external
  · exact h

theorem controlInv_kept : Kept ControlInv where
  tail _ _ _ h ha := h.frame fun m hm => h.external m (ha ▸ List.mem_cons_of_mem _ hm)
  turn _ _ h ht := unitTurn_controlInv h ht
  offer _ _ h := h.frame h.external
  answers _ _ h := h.frame h.external
  acks _ _ h := h.frame h.external
  sink _ _ h := h.frame h.external
  deliver _ _ h := h.frame h.external
  flush _ h := flushInbound_controlInv h
  select _ _ h := h.frame h.external
  maxWaitPolls _ _ h := h.frame h.external
  pollIntervalMs _ _ h := h.frame h.external
  imgRetryCeil _ _ h := h.frame h.external
  reset s h := (resetWith_controlInv s.params).frame h.external

/-- Settles O48: every turn of the unit and every move of the environment keeps the invariant, and its agenda has no
other step. -/
theorem controlInvKept : Obligations.ControlInvKept := fun _ _ h ht => step_keeps controlInv_kept h h.external ht

end Sys2Proof.Machine
end

section
/-!
PROOFS. Who writes what (10_state.md R27 to R47): for each phase the registers and streams its step leaves alone, how a
step closes, and from these the statements about writers and about the append-only streams.
-/

namespace Sys2Proof.Machine

/-! ### A step's own writes, and how it closes -/

/-- How a step closes: no step is taken, the command goes on in a phase, or it ends. -/
inductive Closes (u : State) : State → Prop where
  | stays : Closes u u
  | goesOn (p : Phase) : p ≠ .idle → Closes u { u with phase := p }
  | ends (code : ResCode) : Closes u (finish code u)

/-- What the step of phase `p` leaves as it was before it closes: each field names the phases that write what it speaks
of (10_state.md R27 to R29, R33, R35 to R38, R41 to R43, R47; 44_execute_image.md R230). -/
structure WritesOf (p : Phase) (s u : State) : Prop where
  command : p ≠ .idle → u.cmd = s.cmd ∧ u.shadow = s.shadow ∧ u.offers = s.offers
  hdr : p ≠ .header → u.hdr = s.hdr
  outbound : p ≠ .send → u.link.outbound = s.link.outbound
  sent : s.link.outbound <+: u.link.outbound
  sink : p ≠ .imgStream → u.sink = s.sink ∧ u.sinkReady = s.sinkReady
  sunk : s.sink <+: u.sink
  tick : p ≠ .send → p ≠ .wait → u.tick = s.tick
  retry : p ≠ .imgDim → p ≠ .imgStream → u.retry = s.retry
  items : p ≠ .exSub → p ≠ .exBody → p ≠ .exHand → u.items = s.items
  yld : p ≠ .wait → p ≠ .imgStream → u.yld = s.yld
  link : p = .idle → u.link = s.link
  inbound : p = .send ∨ p = .wait → s.link.inbound <+: u.link.inbound
  rb : p ≠ .fixed → u.data.rb = s.data.rb
  counts : p ≠ .exSub →
    u.data.bodyCount = s.data.bodyCount ∧ u.data.handCount = s.data.handCount ∧ u.data.faceCount = s.data.faceCount
  dims : p ≠ .imgDim → u.data.imgW = s.data.imgW ∧ u.data.imgH = s.data.imgH
  imgRem : p ≠ .imgDim → p ≠ .imgStream → u.data.imgRem = s.data.imgRem
  budget : p ≠ .header → p.executing = false → u.data.budgetLeft = s.data.budgetLeft
  result : u.res.code = s.res.code ∧ u.res.dataValid = s.res.dataValid ∧ u.res.devStatus = s.res.devStatus
  valid : p ≠ .idle → u.res.valid = s.res.valid
  imgPresent : p ≠ .idle → p ≠ .imgDim → u.res.imgPresent = s.res.imgPresent
  imgIncomplete : p ≠ .idle → p ≠ .imgStream → u.res.imgIncomplete = s.res.imgIncomplete
  overBudget : p ≠ .idle → p.executing = false → u.res.overBudget = s.res.overBudget
  kept : u.cfg = s.cfg ∧ u.cfgSel = s.cfgSel ∧ u.params = s.params ∧ u.agenda = s.agenda

theorem WritesOf.refl (p : Phase) (s : State) : WritesOf p s s := by
  constructor <;> simp

/-! ### The steps -/

/-- A read writes the inbound stream alone, which no phase of a reading step keeps. -/
theorem tRead_writes {p : Phase} {s u : State} {n : Nat} {bs : List Byte} (h : tRead n s = some (bs, u))
    (hi : p ≠ .idle) (hs : p ≠ .send) (hw : p ≠ .wait) : WritesOf p s u := by
  obtain ⟨a, rest, -, -, rfl⟩ := tRead_some h
  constructor <;> simp [hi, hs, hw]

/-- Counting the budget is a write of the execution's phases (44_execute_image.md R230). -/
theorem WritesOf.consume {p : Phase} {s u : State} (w : WritesOf p s u) (hp : p.executing = true) (k : Nat) :
    WritesOf p s (consume k u) := by
  have other {q : Prop} : p.executing = false → q := fun hn => absurd (hp.symm.trans hn) nofun
  unfold Machine.consume
  split
  · exact { w with budget := fun _ => other, overBudget := fun _ => other }
  · exact { w with budget := fun _ => other }

theorem idleTurn_writes {s t : State} (h : idleTurn s = .moves t) : ∃ u, WritesOf .idle s u ∧ Closes u t := by
  obtain ⟨c, rest, d, -, -, -, rfl⟩ := idleTurn_moves h
  refine ⟨latchCommand d c { s with offers := rest }, ?_, ?_⟩
  · exact { WritesOf.refl .idle s with
      command := nofun, valid := nofun, imgPresent := nofun, imgIncomplete := nofun, overBudget := nofun }
  · unfold admitLength
    split
    · exact .ends _
    · exact .goesOn .send nofun

/-- A `TWrite` appends to the outbound stream, and bytes may arrive meanwhile (20_memory.md R63, R66). -/
theorem tWrite_writes {s u : State} {f : List Byte} {c : Nat} (h : tWrite f s = some (c, u)) : WritesOf .send s u := by
  obtain ⟨a, rest, -, -, rfl⟩ := tWrite_some h
  exact { WritesOf.refl .send s with
    outbound := nofun, sent := List.prefix_append .., link := nofun, inbound := fun _ => List.prefix_append .. }

theorem sendTurn_writes {s t : State} (h : sendTurn s = .moves t) : ∃ u, WritesOf .send s u ∧ Closes u t := by
  obtain ⟨c, u, hu, hcase⟩ := sendTurn_moves h
  have w := tWrite_writes hu
  rcases hcase with ⟨-, rfl⟩ | ⟨-, rfl⟩
  · exact ⟨u, w, .ends _⟩
  · exact ⟨{ u with tick := 0 }, { w with tick := nofun }, .goesOn .wait nofun⟩

/-- The poll of a waiting phase: the yield's end, and bytes that arrive (10_state.md R26; 20_memory.md R65, R66). -/
theorem poll_writes {p : Phase} {s u v : State} {n : Nat} (hu : resume s = some u) (hv : tAvail u = some (n, v))
    (hp : p = .wait ∨ p = .imgStream) : WritesOf p s v := by
  obtain ⟨y, rfl⟩ := resume_changes_yield_only hu
  obtain ⟨a, rest, -, -, rfl⟩ := tAvail_some hv
  rcases hp with rfl | rfl
  · exact { WritesOf.refl .wait s with yld := nofun, link := nofun, inbound := fun _ => List.prefix_append .. }
  · exact { WritesOf.refl .imgStream s with yld := nofun, link := nofun, inbound := nofun }

theorem emptyWaitPoll_writes {s v : State} (w : WritesOf .wait s v) :
    ∃ u, WritesOf .wait s u ∧ Closes u (emptyWaitPoll v) := by
  rcases emptyWaitPoll_cases v with ⟨-, he⟩ | ⟨-, he⟩ <;> rw [he]
  · refine ⟨_, ?_, .ends _⟩
    exact { w with tick := nofun }
  · refine ⟨yieldFor _ _, ?_, .goesOn .wait nofun⟩
    exact { w with tick := nofun, yld := nofun }

theorem waitTurn_writes {s t : State} (h : waitTurn s = .moves t) : ∃ u, WritesOf .wait s u ∧ Closes u t := by
  obtain ⟨u, a, v, hu, hv, hcase⟩ := waitTurn_moves h
  have w := poll_writes hu hv (.inl rfl)
  rcases hcase with ⟨-, rfl⟩ | ⟨-, rfl⟩
  · exact ⟨v, w, .goesOn .header nofun⟩
  · exact emptyWaitPoll_writes w

/-- Dispatch closes the header's step with the budget at `H_LEN` (42_executor.md R167). -/
theorem enterDecoder_closes (s : State) : Closes { s with data.budgetLeft := s.hdr.len } (enterDecoder s) := by
  unfold enterDecoder
  rcases dispatch_cases { s with data.budgetLeft := s.hdr.len } with ⟨-, he⟩ | ⟨-, -, he⟩ | ⟨-, he⟩ <;> rw [he]
  · exact .ends _
  · exact .goesOn .fixed nofun
  · exact .goesOn .exSub nofun

theorem headerTurn_writes {s t : State} (h : headerTurn s = .moves t) : ∃ u, WritesOf .header s u ∧ Closes u t := by
  obtain ⟨bs, u, hu, hcase⟩ := headerTurn_moves h
  have w : WritesOf .header s u := tRead_writes hu nofun nofun nofun
  rcases hcase with ⟨-, rfl⟩ | ⟨hd, -, -, rfl⟩
  · exact ⟨u, w, .ends _⟩
  · have registered : WritesOf .header s { u with hdr := ⟨hd.syncByte, hd.status, hd.payloadLength⟩ } :=
      { w with hdr := nofun }
    rcases takeHeader_cases hd u with ⟨-, he⟩ | ⟨-, -, he⟩ | ⟨-, -, he⟩ <;> rw [he]
    · exact ⟨_, registered, .ends _⟩
    · exact ⟨_, registered, .ends _⟩
    · refine ⟨_, ?_, enterDecoder_closes _⟩
      exact { registered with budget := nofun }

theorem WritesOf.fillBuffer {s u : State} (w : WritesOf .fixed s u) (rb : Vector Byte 19) (freeIdx : Nat) :
    WritesOf .fixed s { u with data.rb := rb, freeIdx := freeIdx } :=
  { w with rb := nofun }

theorem fixedTurn_writes {s t : State} (h : fixedTurn s = .moves t) : ∃ u, WritesOf .fixed s u ∧ Closes u t := by
  obtain ⟨bs, u, hu, hcase⟩ := fixedTurn_moves h
  have w : WritesOf .fixed s u := tRead_writes hu nofun nofun nofun
  rcases hcase with ⟨-, rfl⟩ | ⟨-, rfl⟩
  · exact ⟨u, w, .ends _⟩
  · exact ⟨_, w.fillBuffer .., .ends _⟩

theorem exSubTurn_writes {s t : State} (h : exSubTurn s = .moves t) : ∃ u, WritesOf .exSub s u ∧ Closes u t := by
  obtain ⟨bs, u, hu, hcase⟩ := exSubTurn_moves h
  have w : WritesOf .exSub s u := tRead_writes hu nofun nofun nofun
  rcases hcase with ⟨-, rfl⟩ | ⟨body, hand, face, -, -, rfl⟩
  · exact ⟨u, w, .ends _⟩
  · have counted : WritesOf .exSub s
        { u with data.bodyCount := body, data.handCount := hand, data.faceCount := face } := { w with counts := nofun }
    have taken := counted.consume rfl execSubhdrLen
    exact ⟨{ consume execSubhdrLen _ with items := body }, { taken with items := nofun }, .goesOn .exBody nofun⟩

theorem exBodyTurn_writes {s t : State} (h : exBodyTurn s = .moves t) : ∃ u, WritesOf .exBody s u ∧ Closes u t := by
  rcases exBodyTurn_moves h with ⟨-, rfl⟩ | ⟨-, -, bs, u, hu, hcase⟩
  · exact ⟨{ s with items := s.data.handCount }, { WritesOf.refl .exBody s with items := nofun },
      .goesOn .exHand nofun⟩
  · have w : WritesOf .exBody s u := tRead_writes hu nofun nofun nofun
    rcases hcase with ⟨-, rfl⟩ | ⟨-, rfl⟩
    · exact ⟨u, w, .ends _⟩
    · have taken := w.consume rfl s.params.bodyItemBytes
      exact ⟨{ consume _ u with items := u.items - 1 }, { taken with items := nofun }, .goesOn .exBody nofun⟩

theorem exHandTurn_writes {s t : State} (h : exHandTurn s = .moves t) : ∃ u, WritesOf .exHand s u ∧ Closes u t := by
  rcases exHandTurn_moves h with ⟨-, -, rfl⟩ | ⟨-, -, rfl⟩ | ⟨-, -, bs, u, hu, hcase⟩
  · exact ⟨s, .refl .., .goesOn .imgDim nofun⟩
  · exact ⟨s, .refl .., .ends _⟩
  · have w : WritesOf .exHand s u := tRead_writes hu nofun nofun nofun
    rcases hcase with ⟨-, rfl⟩ | ⟨-, rfl⟩
    · exact ⟨u, w, .ends _⟩
    · have taken := w.consume rfl s.params.handItemBytes
      exact ⟨{ consume _ u with items := u.items - 1 }, { taken with items := nofun }, .goesOn .exHand nofun⟩

/-- The dimensions are in their registers, the image is present, and its bytes are counted (44_execute_image.md
R222). -/
theorem dimensionsTaken_writes {s u : State} (w : WritesOf .imgDim s u) (wd ht : Word16) :
    WritesOf .imgDim s (dimensionsTaken wd ht u) := by
  have sides : WritesOf .imgDim s { u with data.imgW := wd, data.imgH := ht } := { w with dims := nofun }
  exact { sides.consume rfl imgDimLen with imgPresent := nofun, imgRem := nofun }

theorem imgDimTurn_writes {s t : State} (h : imgDimTurn s = .moves t) : ∃ u, WritesOf .imgDim s u ∧ Closes u t := by
  obtain ⟨bs, u, hu, hcase⟩ := imgDimTurn_moves h
  have w : WritesOf .imgDim s u := tRead_writes hu nofun nofun nofun
  rcases hcase with ⟨-, rfl⟩ | ⟨w0, w1, h0, h1, -, rfl⟩
  · exact ⟨u, w, .ends _⟩
  · have taken := dimensionsTaken_writes w (b2i w0 w1) (b2i h0 h1)
    rcases takeDimensions_cases (b2i w0 w1) (b2i h0 h1) u with ⟨-, he⟩ | ⟨-, he⟩ <;> rw [he]
    · exact ⟨_, taken, .ends _⟩
    · exact ⟨{ dimensionsTaken _ _ u with retry := 0 }, { taken with retry := nofun }, .goesOn .imgStream nofun⟩

theorem emptyDrainPoll_writes {s v : State} (w : WritesOf .imgStream s v) :
    ∃ u, WritesOf .imgStream s u ∧ Closes u (emptyDrainPoll v) := by
  rcases emptyDrainPoll_cases v with ⟨-, he⟩ | ⟨-, he⟩ <;> rw [he]
  · refine ⟨_, ?_, .ends _⟩
    exact { w with retry := nofun, imgIncomplete := nofun }
  · refine ⟨yieldFor _ _, ?_, .goesOn .imgStream nofun⟩
    exact { w with retry := nofun, yld := nofun }

/-- A chunk goes to the sink and is counted (44_execute_image.md R224). -/
theorem takeChunk_writes {s v : State} (w : WritesOf .imgStream s v) (bs : List Byte) :
    ∃ u, WritesOf .imgStream s u ∧ Closes u (takeChunk bs.length (sinkTakes bs v)) := by
  have counted : WritesOf .imgStream s
      { sinkTakes bs v with data.imgRem := v.data.imgRem - BitVec.ofNat 32 bs.length } :=
    { w with sink := nofun, sunk := w.sunk.trans (List.prefix_append ..), imgRem := nofun }
  have taken : WritesOf .imgStream s (chunkTaken bs.length (sinkTakes bs v)) :=
    { counted.consume rfl bs.length with retry := nofun }
  rcases takeChunk_cases bs.length (sinkTakes bs v) with ⟨-, he⟩ | ⟨-, he⟩ <;> rw [he]
  · exact ⟨_, taken, .ends _⟩
  · exact ⟨_, taken, .goesOn .imgStream nofun⟩

/-- The read of a chunk comes after the poll of the same step. -/
theorem WritesOf.chunkRead {s v x : State} (w : WritesOf .imgStream s v) {n : Nat} {bs : List Byte}
    (h : tRead n v = some (bs, x)) : WritesOf .imgStream s x := by
  obtain ⟨a, rest, -, -, rfl⟩ := tRead_some h
  exact { w with link := nofun, inbound := nofun }

theorem imgStreamTurn_writes {s t : State} (h : imgStreamTurn s = .moves t) :
    ∃ u, WritesOf .imgStream s u ∧ Closes u t := by
  obtain ⟨u, a, v, hu, hv, hcase⟩ := imgStreamTurn_moves h
  have polled := poll_writes hu hv (.inr rfl)
  rcases hcase with ⟨-, rfl⟩ | ⟨-, bs, x, hx, hcase⟩
  · exact emptyDrainPoll_writes polled
  · have chunk := polled.chunkRead hx
    rcases hcase with ⟨-, rfl⟩ | ⟨-, y, hy, rfl⟩
    · exact emptyDrainPoll_writes chunk
    · obtain ⟨-, rfl⟩ := sinkWrite_some hy
      exact takeChunk_writes chunk bs

/-- The step of a phase, as the `STEP_` rows name it. -/
def turnOf (p : Phase) (s : State) : Turn :=
  match p with
  | .idle => idleTurn s
  | .send => sendTurn s
  | .wait => waitTurn s
  | .header => headerTurn s
  | .fixed => fixedTurn s
  | .exSub => exSubTurn s
  | .exBody => exBodyTurn s
  | .exHand => exHandTurn s
  | .imgDim => imgDimTurn s
  | .imgStream => imgStreamTurn s

theorem unitTurn_eq_turnOf (s : State) : unitTurn s = turnOf s.phase s := rfl

theorem exec_stepOfPhase_eq (p : Phase) (s : State) : exec (stepOfPhase p) s = (turnOf p s).outcome s := by
  cases p <;> rfl

/-- The step of a phase, in whatever phase it runs, writes what is that phase's and closes. -/
theorem turnOf_writes {p : Phase} {s t : State} (h : turnOf p s = .moves t) : ∃ u, WritesOf p s u ∧ Closes u t := by
  cases p with
  | idle => exact idleTurn_writes h
  | send => exact sendTurn_writes h
  | wait => exact waitTurn_writes h
  | header => exact headerTurn_writes h
  | fixed => exact fixedTurn_writes h
  | exSub => exact exSubTurn_writes h
  | exBody => exact exBodyTurn_writes h
  | exHand => exact exHandTurn_writes h
  | imgDim => exact imgDimTurn_writes h
  | imgStream => exact imgStreamTurn_writes h

/-! ### What a close leaves alone -/

/-- What no close touches: all but `PHASE`, the result and the result data (42_executor.md R160). -/
theorem Closes.frame {u t : State} (h : Closes u t) :
    ∃ phase data res freeIdx, t = { u with phase := phase, data := data, res := res, freeIdx := freeIdx } := by
  cases h with
  | stays => exact ⟨_, _, _, _, rfl⟩
  | goesOn p _ => exact ⟨_, _, _, _, rfl⟩
  | ends code => exact ⟨_, _, _, _, rfl⟩

/-- The flags of 10_state.md R38 are no close's. -/
theorem Closes.flags {u t : State} (h : Closes u t) :
    t.res.imgPresent = u.res.imgPresent ∧ t.res.imgIncomplete = u.res.imgIncomplete ∧
      t.res.overBudget = u.res.overBudget := by
  cases h <;> exact ⟨rfl, rfl, rfl⟩

/-- While the command goes on the result is not posted. -/
theorem Closes.res {u t : State} (h : Closes u t) (hb : t.phase ≠ .idle) : t.res = u.res := by
  cases h with
  | stays => rfl
  | goesOn p _ => rfl
  | ends code => exact absurd rfl hb

/-- While the command goes on, and at an end with data, the result data stay (10_state.md R36). -/
theorem Closes.data {u t : State} (h : Closes u t) (hd : t.phase ≠ .idle ∨ t.res.dataValid = true) :
    t.data = u.data := by
  cases h with
  | stays => rfl
  | goesOn p _ => rfl
  | ends code => exact if_pos (hd.resolve_left fun hb => hb rfl)

/-! ### The statements -/

/-- A step with nothing on the agenda is the unit's, or none. -/
theorem step_of_unit {s t : State} (ha : s.agenda = []) (h : step s = .next t) :
    ∃ u, WritesOf s.phase s u ∧ Closes u t := by
  rw [step_of_decoded (fetch_nil ha) (decode_phaseWord ..), exec_stepOfPhase, unitTurn_eq_turnOf] at h
  rcases Turn.outcome_next h with h | ⟨-, rfl⟩
  · exact turnOf_writes h
  · exact ⟨t, .refl .., .stays⟩

/-- Settles O54: the writes of the phase's step, and of its close only what a close may write. -/
theorem registerWriters : Obligations.RegisterWriters := by
  intro s t ha h
  obtain ⟨u, w, hc⟩ := step_of_unit ha h
  have res_kept := hc.res
  have data_kept := hc.data
  obtain ⟨present, incomplete, overrun⟩ := hc.flags
  obtain ⟨phase, data, res, freeIdx, rfl⟩ := hc.frame
  obtain ⟨code, dataValid, devStatus⟩ := w.result
  obtain ⟨cfg, cfgSel, params, agenda⟩ := w.kept
  refine ⟨w.command, w.hdr, w.outbound, w.sink, w.tick, w.retry, w.items, w.yld, w.link, w.inbound, fun hd => ?_,
    fun hb => ?_, fun hi hd => present.trans (w.imgPresent hi hd),
    fun hi hs => incomplete.trans (w.imgIncomplete hi hs), fun hi he => overrun.trans (w.overBudget hi he),
    cfg, cfgSel, params, agenda.trans ha⟩
  · rw [data_kept hd]
    exact ⟨w.rb, w.counts, w.dims, w.imgRem, w.budget⟩
  · rw [res_kept hb]
    exact ⟨code, dataValid, devStatus, w.valid⟩

/-! ### Any step at all -/

/-- What any instruction does: a channel's word, the step of a phase, or a decoder invoked. -/
theorem exec_cases (i : Instr) :
    ChannelInstr i ∨ (∃ p, i = stepOfPhase p) ∨ (∃ d, ∀ s, exec i s = invokeDecoder d s) ∨ i = .decReserved := by
  cases i with
  | getVersion len payload => exact .inl (.command .getVersion len payload false)
  | setCameraAngle len payload => exact .inl (.command .setCameraAngle len payload false)
  | getCameraAngle len payload => exact .inl (.command .getCameraAngle len payload false)
  | execute len payload imgreq => exact .inl (.command .execute len payload imgreq)
  | setThreshold len payload => exact .inl (.command .setThreshold len payload false)
  | getThreshold len payload => exact .inl (.command .getThreshold len payload false)
  | setDetectionSize len payload => exact .inl (.command .setDetectionSize len payload false)
  | getDetectionSize len payload => exact .inl (.command .getDetectionSize len payload false)
  | setFaceAngle len payload => exact .inl (.command .setFaceAngle len payload false)
  | getFaceAngle len payload => exact .inl (.command .getFaceAngle len payload false)
  | responseHeader sync status length => exact .inl (.header sync status length)
  | decNone => exact .inr (.inr (.inl ⟨.none, fun _ => rfl⟩))
  | decVersion => exact .inr (.inr (.inl ⟨.version, fun _ => rfl⟩))
  | decCameraAngle => exact .inr (.inr (.inl ⟨.cameraAngle, fun _ => rfl⟩))
  | decThreshold => exact .inr (.inr (.inl ⟨.threshold, fun _ => rfl⟩))
  | decDetsize => exact .inr (.inr (.inl ⟨.detsize, fun _ => rfl⟩))
  | decFaceAngle => exact .inr (.inr (.inl ⟨.faceAngle, fun _ => rfl⟩))
  | decExec => exact .inr (.inr (.inl ⟨.exec, fun _ => rfl⟩))
  | decReserved => exact .inr (.inr (.inr rfl))
  | stepIdle => exact .inr (.inl ⟨.idle, rfl⟩)
  | stepSend => exact .inr (.inl ⟨.send, rfl⟩)
  | stepWait => exact .inr (.inl ⟨.wait, rfl⟩)
  | stepHeader => exact .inr (.inl ⟨.header, rfl⟩)
  | stepFixed => exact .inr (.inl ⟨.fixed, rfl⟩)
  | stepExSub => exact .inr (.inl ⟨.exSub, rfl⟩)
  | stepExBody => exact .inr (.inl ⟨.exBody, rfl⟩)
  | stepExHand => exact .inr (.inl ⟨.exHand, rfl⟩)
  | stepImgDim => exact .inr (.inl ⟨.imgDim, rfl⟩)
  | stepImgStream => exact .inr (.inl ⟨.imgStream, rfl⟩)
  | cfgWriteMaxWaitPolls v => exact .inl (.maxWaitPolls v)
  | cfgWritePollIntervalMs v => exact .inl (.pollIntervalMs v)
  | cfgWriteImgRetryCeil v => exact .inl (.imgRetryCeil v)
  | cfgSelReserved v => exact .inl (.reserved v)

/-- Every instruction keeps what the moves and turns keep, if the step of a phase keeps it in every other phase too, and
the entry into a decoder. -/
theorem Kept.exec {P : State → Prop} (K : Kept P) (row : ∀ p s t, P s → turnOf p s = .moves t → P t)
    (entry : ∀ s, P s → P (enterDecoder s)) {i : Instr} {s t : State} (hs : P s) (h : exec i s = .next t) : P t := by
  rcases exec_cases i with hi | ⟨p, rfl⟩ | ⟨d, hd⟩ | rfl
  · exact K.channel hi hs h
  · rw [exec_stepOfPhase_eq] at h
    rcases Turn.outcome_next h with h | ⟨-, rfl⟩
    · exact row p s t hs h
    · exact hs
  · rw [hd] at h
    by_cases hx : s.cmd.dec = d
    · rw [invokeDecoder_chosen hx] at h
      exact runUnit_keeps K.turn (entry s hs) h
    · rw [invokeDecoder_other hx] at h
      cases h
      exact hs
  · cases h

/-- What is appended to and what never changes, from a state `s` on (10_state.md R47; 00_scope.md R7). -/
def OutputsExtend (s t : State) : Prop :=
  s.link.outbound <+: t.link.outbound ∧ s.sink <+: t.sink ∧ t.params = s.params

theorem OutputsExtend.refl (s : State) : OutputsExtend s s := ⟨List.prefix_rfl, List.prefix_rfl, rfl⟩

theorem OutputsExtend.trans {s t u : State} (h : OutputsExtend s t) (g : OutputsExtend t u) : OutputsExtend s u := by
  obtain ⟨sent, sunk, params⟩ := h
  obtain ⟨sent', sunk', params'⟩ := g
  exact ⟨sent.trans sent', sunk.trans sunk', params'.trans params⟩

theorem WritesOf.outputsExtend {p : Phase} {s u : State} (w : WritesOf p s u) : OutputsExtend s u := by
  obtain ⟨-, -, params, -⟩ := w.kept
  exact ⟨w.sent, w.sunk, params⟩

theorem Closes.outputsExtend {u t : State} (h : Closes u t) : OutputsExtend u t := by
  obtain ⟨phase, data, res, freeIdx, rfl⟩ := h.frame
  exact .refl u

theorem turnOf_outputsExtend {p : Phase} {s t : State} (h : turnOf p s = .moves t) : OutputsExtend s t := by
  obtain ⟨u, w, hc⟩ := turnOf_writes h
  exact w.outputsExtend.trans hc.outputsExtend

/-- A flush empties the inbound stream at most (20_memory.md R82). -/
theorem flushInbound_outputsExtend (s : State) : OutputsExtend s (flushInbound s) := by
  unfold flushInbound
  split <;> exact .refl s

theorem outputsExtend_kept (s : State) : Kept (OutputsExtend s) where
  tail _ _ _ h _ := h
  turn _ _ h ht := h.trans (turnOf_outputsExtend (unitTurn_eq_turnOf _ ▸ ht))
  offer _ _ h := h
  answers _ _ h := h
  acks _ _ h := h
  sink _ _ h := h
  deliver _ _ h := h
  flush _ h := h.trans (flushInbound_outputsExtend _)
  select _ _ h := h
  maxWaitPolls _ _ h := h
  pollIntervalMs _ _ h := h
  imgRetryCeil _ _ h := h
  reset _ h := h

theorem Kept.environment {P : State → Prop} (K : Kept P) (m : Move) {s : State} (hs : P s) :
    P (environmentMove m s) := by
  cases m with
  | unit => exact hs
  | word w => exact hs
  | offer c => exact K.offer _ c hs
  | cfgRead sel => exact K.select _ sel hs
  | answer a => exact K.answers _ _ hs
  | ack => exact K.acks _ _ hs
  | sinkReady n => exact K.sink _ _ hs
  | deliver bs => exact K.deliver _ bs hs
  | flush => exact K.flush _ hs
  | rst => exact K.reset _ hs

/-- What a step is: a move of the environment, or an instruction, from the state with the move taken off the agenda. -/
theorem step_next {s t : State} (h : step s = .next t) :
    (∃ m rest, s.agenda = m :: rest ∧ t = environmentMove m { s with agenda := rest }) ∨
    (∃ i u, (u = s ∨ ∃ m rest, s.agenda = m :: rest ∧ u = { s with agenda := rest }) ∧ exec i u = .next t) := by
  unfold step at h
  split at h
  · next u hf =>
    cases h
    unfold fetch at hf
    split at hf
    · cases hf
    · cases hf
    · cases hf
    · next m rest _ _ ha =>
      cases hf
      exact .inl ⟨m, rest, ha, rfl⟩
  · next w u hf =>
    split at h
    · next i _ =>
      refine .inr ⟨i, u, ?_, h⟩
      unfold fetch at hf
      split at hf
      · cases hf
        exact .inl rfl
      · next rest ha =>
        cases hf
        exact .inr ⟨_, rest, ha, rfl⟩
      · next rest ha =>
        cases hf
        exact .inr ⟨_, rest, ha, rfl⟩
      · cases hf
    · cases h

/-- Every step at all, whatever word the agenda brings, keeps what moves, turns, rows and decoders keep. -/
theorem Kept.step {P : State → Prop} (K : Kept P) (row : ∀ p s t, P s → turnOf p s = .moves t → P t)
    (entry : ∀ s, P s → P (enterDecoder s)) {s t : State} (hs : P s) (h : step s = .next t) : P t := by
  rcases step_next h with ⟨m, rest, ha, rfl⟩ | ⟨i, u, rfl | ⟨m, rest, ha, rfl⟩, he⟩
  · exact K.environment m (K.tail s m rest hs ha)
  · exact K.exec row entry hs he
  · exact K.exec row entry (K.tail s m rest hs ha) he

/-- Settles O53: every step extends the streams, the words that only the unit itself presents included. -/
theorem outputsAppendOnly : Obligations.OutputsAppendOnly := fun s _ h =>
  (outputsExtend_kept s).step (fun _ _ _ hs ht => hs.trans (turnOf_outputsExtend ht))
    (fun _ hs => hs.trans (enterDecoder_closes _).outputsExtend) (.refl s) h

end Sys2Proof.Machine
end

section
/-!
PROOFS. What a command in flight does not look at: the configuration registers (10_state.md R33) and, without an
execution, `C_IMGREQ` (10_state.md R22). Two runs that differ there alone go the same way.
-/

namespace Sys2Proof.Machine

/-! ### Two states that differ in what is not looked at -/

/-- `s` with other contents of the configuration registers and of `C_IMGREQ`. -/
def reconfigure (g : ConfigRegs → ConfigRegs) (k : Bool → Bool) (s : State) : State :=
  { s with cfg := g s.cfg, cmd.imgreq := k s.cmd.imgreq }

/-- A turn with its next state changed. -/
def Turn.map (f : State → State) (t : Turn) : Turn :=
  match t with
  | .moves s => .moves (f s)
  | .waits => .waits
  | .refuses r => .refuses r

section

variable (g : ConfigRegs → ConfigRegs) (k : Bool → Bool)

/-! ### The requests and the shared operations do not look there -/

@[simp] theorem reconfigure_phase (s : State) : (reconfigure g k s).phase = s.phase := rfl
@[simp] theorem reconfigure_items (s : State) : (reconfigure g k s).items = s.items := rfl
@[simp] theorem reconfigure_dec (s : State) : (reconfigure g k s).cmd.dec = s.cmd.dec := rfl
@[simp] theorem reconfigure_data (s : State) : (reconfigure g k s).data = s.data := rfl
@[simp] theorem reconfigure_link (s : State) : (reconfigure g k s).link = s.link := rfl
@[simp] theorem reconfigure_yld (s : State) : (reconfigure g k s).yld = s.yld := rfl
@[simp] theorem reconfigure_params (s : State) : (reconfigure g k s).params = s.params := rfl

theorem takeAnswer_reconfigure (s : State) :
    takeAnswer (reconfigure g k s) = (takeAnswer s).map (Prod.map id (reconfigure g k)) := by
  simp only [takeAnswer, reconfigure_link]
  cases s.link.answers <;> rfl

theorem tWrite_reconfigure (frame : List Byte) (s : State) :
    tWrite frame (reconfigure g k s) = (tWrite frame s).map (Prod.map id (reconfigure g k)) := by
  simp only [tWrite, takeAnswer_reconfigure]
  cases takeAnswer s <;> rfl

theorem tAvail_reconfigure (s : State) :
    tAvail (reconfigure g k s) = (tAvail s).map (Prod.map id (reconfigure g k)) := by
  simp only [tAvail, takeAnswer_reconfigure]
  cases takeAnswer s <;> rfl

theorem tRead_reconfigure (n : Nat) (s : State) :
    tRead n (reconfigure g k s) = (tRead n s).map (Prod.map id (reconfigure g k)) := by
  simp only [tRead, takeAnswer_reconfigure]
  cases takeAnswer s <;> rfl

theorem sinkWrite_reconfigure (bs : List Byte) (s : State) :
    sinkWrite bs (reconfigure g k s) = (sinkWrite bs s).map (reconfigure g k) := by
  unfold sinkWrite
  rw [apply_ite (Option.map (reconfigure g k))]
  rfl

theorem resume_reconfigure (s : State) : resume (reconfigure g k s) = (resume s).map (reconfigure g k) := by
  simp only [resume, reconfigure_yld]
  rw [apply_ite (Option.map (reconfigure g k))]
  cases s.yld.acks <;> rfl

theorem consume_reconfigure (n : Nat) (s : State) :
    consume n (reconfigure g k s) = reconfigure g k (consume n s) := by
  simp only [consume]
  rw [apply_ite (reconfigure g k)]
  rfl

theorem dispatch_reconfigure (s : State) : dispatch (reconfigure g k s) = reconfigure g k (dispatch s) := by
  simp only [dispatch, reconfigure_dec]
  cases s.cmd.dec <;> rfl

theorem enterDecoder_reconfigure (s : State) :
    enterDecoder (reconfigure g k s) = reconfigure g k (enterDecoder s) :=
  dispatch_reconfigure g k { s with data.budgetLeft := s.hdr.len }

theorem takeHeader_reconfigure (h : ResponseHeader) (s : State) :
    takeHeader h (reconfigure g k s) = reconfigure g k (takeHeader h s) := by
  simp only [takeHeader, reconfigure_params]
  cases validate s.params.sync h with
  | badSync => rfl
  | deviceError status => rfl
  | valid => exact enterDecoder_reconfigure g k { s with hdr := ⟨h.syncByte, h.status, h.payloadLength⟩ }

theorem dimensionsTaken_reconfigure (w h : Word16) (s : State) :
    dimensionsTaken w h (reconfigure g k s) = reconfigure g k (dimensionsTaken w h s) :=
  congrArg (fun u : State => { u with res.imgPresent := true, data.imgRem := mul16 w h })
    (consume_reconfigure g k imgDimLen { s with data.imgW := w, data.imgH := h })

theorem takeDimensions_reconfigure (w h : Word16) (s : State) :
    takeDimensions w h (reconfigure g k s) = reconfigure g k (takeDimensions w h s) := by
  simp only [takeDimensions, dimensionsTaken_reconfigure]
  rw [apply_ite (reconfigure g k)]
  rfl

theorem chunkTaken_reconfigure (n : Nat) (s : State) :
    chunkTaken n (reconfigure g k s) = reconfigure g k (chunkTaken n s) :=
  congrArg (fun u : State => { u with retry := if s.params.imgRetryResetOnData then 0 else s.retry })
    (consume_reconfigure g k n { s with data.imgRem := s.data.imgRem - BitVec.ofNat 32 n })

theorem takeChunk_reconfigure (n : Nat) (s : State) :
    takeChunk n (reconfigure g k s) = reconfigure g k (takeChunk n s) := by
  simp only [takeChunk, chunkTaken_reconfigure]
  rw [apply_ite (reconfigure g k)]
  rfl

theorem emptyWaitPoll_reconfigure (s : State) :
    emptyWaitPoll (reconfigure g k s) = reconfigure g k (emptyWaitPoll s) := by
  simp only [emptyWaitPoll]
  rw [apply_ite (reconfigure g k)]
  rfl

theorem emptyDrainPoll_reconfigure (s : State) :
    emptyDrainPoll (reconfigure g k s) = reconfigure g k (emptyDrainPoll s) := by
  simp only [emptyDrainPoll]
  rw [apply_ite (reconfigure g k)]
  rfl

/-! ### The turns of a command in flight -/

theorem sendTurn_reconfigure (s : State) : sendTurn (reconfigure g k s) = (sendTurn s).map (reconfigure g k) := by
  have frame : sendFrame (reconfigure g k s).params (reconfigure g k s).cmd = sendFrame s.params s.cmd := rfl
  simp only [sendTurn, frame, tWrite_reconfigure]
  cases tWrite (sendFrame s.params s.cmd) s with
  | none => rfl
  | some r =>
    simp only [Option.map_some, Prod.map, id_eq]
    rw [apply_ite (Turn.map (reconfigure g k))]
    rfl

theorem waitTurn_reconfigure (s : State) : waitTurn (reconfigure g k s) = (waitTurn s).map (reconfigure g k) := by
  simp only [waitTurn, resume_reconfigure]
  cases resume s with
  | none => rfl
  | some u =>
    simp only [Option.map_some, tAvail_reconfigure]
    cases tAvail u with
    | none => rfl
    | some r =>
      simp only [Option.map_some, Prod.map, id_eq, emptyWaitPoll_reconfigure]
      rw [apply_ite (Turn.map (reconfigure g k))]
      rfl

theorem headerTurn_reconfigure (s : State) :
    headerTurn (reconfigure g k s) = (headerTurn s).map (reconfigure g k) := by
  simp only [headerTurn, tRead_reconfigure]
  cases tRead rspHdrLen s with
  | none => rfl
  | some r =>
    simp only [Option.map_some, Prod.map, id_eq, takeHeader_reconfigure]
    cases decodeHeader r.1 <;> rfl

theorem fixedTurn_reconfigure (s : State) : fixedTurn (reconfigure g k s) = (fixedTurn s).map (reconfigure g k) := by
  simp only [fixedTurn, reconfigure_dec, tRead_reconfigure]
  cases tRead (shapeLen s.cmd.dec) s with
  | none => rfl
  | some r =>
    simp only [Option.map_some, Prod.map, id_eq]
    rw [apply_ite (Turn.map (reconfigure g k))]
    rfl

theorem exSubTurn_reconfigure (s : State) : exSubTurn (reconfigure g k s) = (exSubTurn s).map (reconfigure g k) := by
  simp only [exSubTurn, tRead_reconfigure]
  cases tRead execSubhdrLen s with
  | none => rfl
  | some r =>
    simp only [Option.map_some, Prod.map, id_eq]
    split
    · next body hand face _ _ =>
      exact congrArg (fun u : State => Turn.moves { u with items := body, phase := .exBody })
        (consume_reconfigure g k execSubhdrLen
          { r.2 with data.bodyCount := body, data.handCount := hand, data.faceCount := face })
    · rfl

/-- A metadata block counted: the budget, `ITEMS` and the phase of the block (44_execute_image.md R218, R219). -/
theorem blockTaken_reconfigure (n : Nat) (p : Phase) (u : State) :
    { consume n (reconfigure g k u) with items := (reconfigure g k u).items - 1, phase := p } =
      reconfigure g k { consume n u with items := u.items - 1, phase := p } :=
  congrArg (fun v : State => { v with items := u.items - 1, phase := p }) (consume_reconfigure g k n u)

theorem exBodyTurn_reconfigure (s : State) :
    exBodyTurn (reconfigure g k s) = (exBodyTurn s).map (reconfigure g k) := by
  simp only [exBodyTurn, reconfigure_items, reconfigure_params, tRead_reconfigure]
  rw [apply_ite (Turn.map (reconfigure g k))]
  refine if_congr Iff.rfl rfl ?_
  cases tRead s.params.bodyItemBytes s with
  | none => rfl
  | some r =>
    simp only [Option.map_some, Prod.map, id_eq, reconfigure_params]
    rw [apply_ite (Turn.map (reconfigure g k))]
    exact if_congr Iff.rfl rfl (congrArg Turn.moves (blockTaken_reconfigure ..))

/-- The one turn of a command in flight that looks at `C_IMGREQ` (44_execute_image.md R220). -/
theorem exHandTurn_reconfigure (s : State) (hk : k s.cmd.imgreq = s.cmd.imgreq) :
    exHandTurn (reconfigure g k s) = (exHandTurn s).map (reconfigure g k) := by
  have imgreq : (reconfigure g k s).cmd.imgreq = s.cmd.imgreq := hk
  simp only [exHandTurn, imgreq, reconfigure_items, reconfigure_params, tRead_reconfigure]
  rw [apply_ite (Turn.map (reconfigure g k)), apply_ite (Turn.map (reconfigure g k))]
  refine if_congr Iff.rfl rfl ?_
  cases tRead s.params.handItemBytes s with
  | none => rfl
  | some r =>
    simp only [Option.map_some, Prod.map, id_eq, reconfigure_params]
    rw [apply_ite (Turn.map (reconfigure g k))]
    exact if_congr Iff.rfl rfl (congrArg Turn.moves (blockTaken_reconfigure ..))

theorem imgDimTurn_reconfigure (s : State) :
    imgDimTurn (reconfigure g k s) = (imgDimTurn s).map (reconfigure g k) := by
  simp only [imgDimTurn, tRead_reconfigure]
  cases tRead imgDimLen s with
  | none => rfl
  | some r =>
    simp only [Option.map_some, Prod.map, id_eq, takeDimensions_reconfigure]
    split <;> rfl

theorem imgStreamTurn_reconfigure (s : State) :
    imgStreamTurn (reconfigure g k s) = (imgStreamTurn s).map (reconfigure g k) := by
  simp only [imgStreamTurn, resume_reconfigure]
  cases resume s with
  | none => rfl
  | some u =>
    simp only [Option.map_some, tAvail_reconfigure]
    cases tAvail u with
    | none => rfl
    | some r =>
      simp only [Option.map_some, Prod.map, id_eq, emptyDrainPoll_reconfigure, reconfigure_params, reconfigure_data,
        tRead_reconfigure]
      rw [apply_ite (Turn.map (reconfigure g k))]
      refine if_congr Iff.rfl ?_ rfl
      cases tRead (chunkSize r.2.params r.2.data.imgRem r.1) r.2 with
      | none => rfl
      | some q =>
        simp only [Option.map_some, Prod.map, id_eq, emptyDrainPoll_reconfigure, sinkWrite_reconfigure]
        rw [apply_ite (Turn.map (reconfigure g k))]
        refine if_congr Iff.rfl ?_ rfl
        cases sinkWrite q.1 q.2 with
        | none => rfl
        | some x => exact congrArg Turn.moves (takeChunk_reconfigure ..)

/-- A turn of a command in flight goes the same way whatever the configuration holds, and whatever `C_IMGREQ` holds but
at the end of the blocks. -/
theorem unitTurn_reconfigure {s : State} (hb : s.phase ≠ .idle)
    (hk : s.phase = .exHand → k s.cmd.imgreq = s.cmd.imgreq) :
    unitTurn (reconfigure g k s) = (unitTurn s).map (reconfigure g k) := by
  simp only [unitTurn, reconfigure_phase]
  cases hp : s.phase with
  | idle => exact absurd hp hb
  | send => exact sendTurn_reconfigure g k s
  | wait => exact waitTurn_reconfigure g k s
  | header => exact headerTurn_reconfigure g k s
  | fixed => exact fixedTurn_reconfigure g k s
  | exSub => exact exSubTurn_reconfigure g k s
  | exBody => exact exBodyTurn_reconfigure g k s
  | exHand => exact exHandTurn_reconfigure g k s (hk hp)
  | imgDim => exact imgDimTurn_reconfigure g k s
  | imgStream => exact imgStreamTurn_reconfigure g k s

/-! ### Runs -/

/-- Two runs of a command in flight, for a property `P` of the states on the way that keeps `C_IMGREQ` unseen. -/
theorem runUnit_reconfigure {P : State → Prop}
    (keeps : ∀ s t, P s → s.phase ≠ .idle → unitTurn s = .moves t → P t)
    (unseen : ∀ s, P s → s.phase = .exHand → k s.cmd.imgreq = s.cmd.imgreq) {fuel : Nat} {s t : State} (hs : P s)
    (h : runUnit (fun u => u.phase == .idle) fuel s = .next t) :
    runUnit (fun u => u.phase == .idle) fuel (reconfigure g k s) = .next (reconfigure g k t) := by
  induction fuel generalizing s with
  | zero =>
    cases h
    rfl
  | succ n ih =>
    simp only [runUnit, reconfigure_phase, beq_iff_eq] at h ⊢
    by_cases hp : s.phase = .idle
    · rw [if_pos hp] at h ⊢
      cases h
      rfl
    · rw [if_neg hp] at h ⊢
      rw [unitTurn_reconfigure g k hp (unseen s hs)]
      cases hu : unitTurn s with
      | waits =>
        rw [hu] at h
        cases h
        rfl
      | refuses r =>
        rw [hu] at h
        cases h
      | moves v =>
        rw [hu] at h
        exact ih (keeps s v hs hp hu) h

end

/-! ### The statements -/

/-- Settles O55: no turn of a command in flight looks at the configuration, and the run stops in IDLE. -/
theorem configurationUnseenInFlight : Obligations.ConfigurationUnseenInFlight := fun _ _ cfg h =>
  runUnit_reconfigure (fun _ => cfg) id (P := fun _ => True) (fun _ _ _ _ _ => trivial) (fun _ _ _ => rfl) trivial h

/-- A command in flight that is no execution: its decoder, and the phases it goes through (42_executor.md R167). -/
def NoExecution (s : State) : Prop := s.cmd.dec ≠ .exec ∧ s.phase.executing = false

theorem NoExecution.not_exHand {s : State} (h : NoExecution s) : s.phase ≠ .exHand := by
  obtain ⟨-, hp⟩ := h
  intro he
  rw [he] at hp
  cases hp

/-- Dispatch enters the execution for `DEC_EXEC` alone (42_executor.md R167). -/
theorem takeHeader_not_executing {s : State} (hd : s.cmd.dec ≠ .exec) (h : ResponseHeader) :
    (takeHeader h s).phase.executing = false := by
  rcases takeHeader_cases h s with ⟨-, he⟩ | ⟨-, -, he⟩ | ⟨-, -, he⟩ <;> rw [he]
  · rfl
  · rfl
  · unfold enterDecoder
    rcases dispatch_cases _ with ⟨-, he⟩ | ⟨-, -, he⟩ | ⟨hx, -⟩
    · rw [he]
      rfl
    · rw [he]
      rfl
    · exact absurd hx hd

/-- From the phases before and beside the execution a turn leads to one of them. -/
theorem unitTurn_not_executing {s t : State} (hs : NoExecution s) (hb : s.phase ≠ .idle)
    (h : unitTurn s = .moves t) : t.phase.executing = false := by
  obtain ⟨hd, hp⟩ := hs
  unfold unitTurn at h
  cases hphase : s.phase <;> rw [hphase] at h hp hb
  case idle => exact absurd rfl hb
  case send =>
    obtain ⟨c, u, -, ⟨-, rfl⟩ | ⟨-, rfl⟩⟩ := sendTurn_moves h <;> rfl
  case wait =>
    obtain ⟨u, a, v, -, -, ⟨-, rfl⟩ | ⟨-, rfl⟩⟩ := waitTurn_moves h
    · rfl
    · rcases emptyWaitPoll_cases v with ⟨-, he⟩ | ⟨-, he⟩ <;> rw [he] <;> rfl
  case header =>
    obtain ⟨bs, u, hu, ⟨-, rfl⟩ | ⟨hd', -, -, rfl⟩⟩ := headerTurn_moves h
    · rfl
    · obtain ⟨link, trace, rfl⟩ := tRead_asked hu
      exact takeHeader_not_executing (s := { s with link := link, trace := trace }) hd hd'
  case fixed =>
    obtain ⟨bs, u, -, ⟨-, rfl⟩ | ⟨-, rfl⟩⟩ := fixedTurn_moves h <;> rfl
  all_goals cases hp

theorem unitTurn_noExecution {s t : State} (hs : NoExecution s) (hb : s.phase ≠ .idle) (h : unitTurn s = .moves t) :
    NoExecution t := by
  have going := unitTurn_not_executing hs hb h
  rw [unitTurn_eq_turnOf] at h
  obtain ⟨u, w, hc⟩ := turnOf_writes h
  obtain ⟨cmd, -, -⟩ := w.command hb
  obtain ⟨phase, data, res, freeIdx, rfl⟩ := hc.frame
  obtain ⟨hd, -⟩ := hs
  exact ⟨cmd.symm ▸ hd, going⟩

/-- Settles O57: without an execution no turn reaches the end of the blocks, where `C_IMGREQ` is looked at. -/
theorem imageRequestUnseenElsewhere : Obligations.ImageRequestUnseenElsewhere := fun _ _ imgreq hd hp h =>
  runUnit_reconfigure id (fun _ => imgreq) (P := NoExecution) (fun _ _ hs hb ht => unitTurn_noExecution hs hb ht)
    (fun _ hs he => absurd he hs.not_exHand) ⟨hd, hp⟩ h

end Sys2Proof.Machine
end

section
/-!
PROOFS. `STATUS` (10_state.md R34), the state after reset (R52), the environment's moves (R20, R26), the command port
(R22) and the reserved selector (R24).
-/

namespace Sys2Proof.Machine

/-! ### `STATUS` -/

theorem status_busy (s : State) : s.status.getLsbD 0 = (s.phase != .idle) := by
  unfold State.status
  cases s.phase <;> rfl

theorem status_lt (s : State) : s.status.toNat < 2 ^ 5 := by
  unfold State.status
  cases s.phase <;> decide

/-- Settles O30: the lower five bits phase by phase, and no more than five. -/
theorem statusRegister : Obligations.StatusRegister := by
  refine fun s => ⟨status_busy s, ?_, fun i hi =>
    Nat.testBit_lt_two_pow ((status_lt s).trans_le (Nat.pow_le_pow_right Nat.two_pos hi))⟩
  unfold State.status
  cases s.phase <;> rfl

/-! ### Reset -/

/-- The accept step refuses a command while the two registers it always needs were never written
(70_reset_and_hazards.md R283). -/
theorem idleTurn_unconfigured {s : State} {c : Command} {rest : List Command} {d : Decoder} (ho : s.offers = c :: rest)
    (hd : decoderOfCode c.dec = some d) (hc : s.cfg.maxWaitPollsWritten = false) :
    idleTurn s = .refuses .configUnwritten := by
  simp [idleTurn, ho, hd, configReady, hc]

/-- Code 7 alone is no decoder's (30_encoding.md R105, R110). -/
theorem decoderOfCode_legal : ∀ c : BitVec 3, c ≠ 7 → (decoderOfCode c).isSome = true := by
  decide

/-- Settles O10: the values of `State.resetWith`, and the refusal of an unwritten configuration. -/
theorem resetValues : Obligations.ResetValues := by
  intro p
  refine ⟨rfl, rfl, status_busy _, rfl, rfl, rfl, fun c hc => ?_⟩
  obtain ⟨d, hd⟩ := Option.isSome_iff_exists.mp (decoderOfCode_legal c.dec hc)
  exact congrArg (Turn.outcome · _)
    (idleTurn_unconfigured (s := { State.resetWith p with offers := [c] }) rfl hd rfl)

/-- After reset there is no command, no result and no request: the four invariants ask for nothing else. -/
theorem resetWith_pollInv (p : Params) : PollInv (State.resetWith p) where
  control := resetWith_controlInv p
  unsent := nofun
  waiting := nofun
  ready := nofun
  timedOut := nofun
  oneSend := Nat.zero_le 1

theorem resetWith_byteInv (p : Params) : ByteInv (State.resetWith p) where
  control := resetWith_controlInv p
  bodies := nofun
  hands := nofun
  inFlight := fun hb => absurd rfl hb
  atEnd := nofun
  whole := fun hb => absurd rfl hb
  short := nofun
  noSink := fun hb => absurd rfl hb
  image := nofun

theorem resetWith_orderInv (p : Params) : OrderInv (State.resetWith p) where
  unsent := nofun
  sendFirst := .inl rfl
  sent := fun hb => absurd rfl hb
  unread := fun _ _ _ hm => absurd hm List.not_mem_nil
  ready := by rintro (h | h) <;> cases h
  pollFirst := fun before n bs after h => absurd (congrArg List.length h) (by simp [State.resetWith])

/-- Settles O52, invariant by invariant. -/
theorem resetMeetsInvariants : Obligations.ResetMeetsInvariants := fun p =>
  ⟨resetWith_controlInv p, resetWith_pollInv p, resetWith_byteInv p, resetWith_orderInv p⟩

/-! ### The environment -/

/-- A move that brings no word is the whole step. -/
theorem step_environmentMove {s : State} {m : Move} {rest : List Move} (ha : s.agenda = m :: rest) (hu : m ≠ .unit)
    (hw : ∀ w, m ≠ .word w) : step s = .next (environmentMove m { s with agenda := rest }) := by
  unfold step fetch
  rw [ha]
  cases m with
  | unit => exact absurd rfl hu
  | word w => exact absurd rfl (hw w)
  | offer | cfgRead | answer | ack | sinkReady | deliver | flush | rst => rfl

/-- A flush acts on the inbound stream, in IDLE only (20_memory.md R62, R82). -/
theorem flushInbound_eq (s : State) :
    flushInbound s = { s with link.inbound := if s.phase = .idle then [] else s.link.inbound } := by
  unfold flushInbound
  split <;> rfl

/-- Settles O13, move by move. -/
theorem environmentMovesOnly : Obligations.EnvironmentMovesOnly := by
  intro s rest
  refine ⟨fun c ha => ?_, fun sel ha => ?_, fun a ha => ?_, fun ha => ?_, fun beats ha => ?_, fun bytes ha => ?_,
    fun ha => ?_⟩ <;> rw [step_environmentMove ha nofun nofun]
  case refine_7 => exact congrArg _ (flushInbound_eq _)
  all_goals rfl

/-! ### The command port -/

/-- A register file latched to `len` holds nothing of the bytes from `len` on. -/
theorem latchBytes_congr {n draw len : Nat} {a b : List Byte} (h : a.take len = b.take len) :
    latchBytes n draw len a = latchBytes n draw len b := by
  have same : ∀ i < len, a.getD i 0 = b.getD i 0 := fun i hi => by
    have hget := congrArg (·[i]?) h
    simp only [List.getElem?_take, hi, if_true] at hget
    simp [hget]
  unfold latchBytes
  congr 1
  funext i
  exact if_ctx_congr Iff.rfl (same i) fun _ => rfl

/-- What the accept step latches of a command (42_executor.md R158) leaves its payload's tail out. -/
theorem latchCommand_payload_tail {c : Command} {tail : Vector Byte 28}
    (h : tail.toList.take c.len.toNat = c.payload.toList.take c.len.toNat) (d : Decoder) (s : State) :
    latchCommand d c s = latchCommand d { c with payload := tail } s := by
  simp only [latchCommand, latchBytes_congr h]

theorem idleTurn_payload_tail {c : Command} {tail : Vector Byte 28}
    (h : tail.toList.take c.len.toNat = c.payload.toList.take c.len.toNat) (s : State) (rest : List Command) :
    idleTurn { s with offers := c :: rest } = idleTurn { s with offers := { c with payload := tail } :: rest } := by
  simp only [idleTurn, latchCommand_payload_tail h]

/-- The outcome of a turn that does not wait is the turn's own. -/
theorem Turn.outcome_of_not_waits {t : Turn} (h : t ≠ .waits) (s s' : State) : t.outcome s = t.outcome s' := by
  cases t with
  | moves u => rfl
  | waits => exact absurd rfl h
  | refuses r => rfl

/-- Settles O56: the accept step sees the payload in the latch alone, and with a command on the port it does not
wait. -/
theorem payloadTailIgnored : Obligations.PayloadTailIgnored := by
  intro s c rest tail h
  have offered : idleTurn { s with offers := { c with payload := tail } :: rest } ≠ .waits := fun hw =>
    List.cons_ne_nil _ _ (idleTurn_waits.mp hw)
  calc exec .stepIdle { s with offers := c :: rest }
      = (idleTurn { s with offers := c :: rest }).outcome _ := rfl
    _ = (idleTurn { s with offers := { c with payload := tail } :: rest }).outcome _ := by
      rw [idleTurn_payload_tail h]
    _ = _ := Turn.outcome_of_not_waits offered _ _

/-! ### The reserved selector -/

/-- Settles O32: the selector is driven and reads 0. -/
theorem reservedSelectorInert : Obligations.ReservedSelectorInert := by
  refine fun s v => ⟨rfl, fun t ht => ?_⟩
  cases ht
  rfl

end Sys2Proof.Machine
end

section
/-!
PROOFS. The order of requests (20_memory.md R61, R78; 41_poll.md R142): what a trace looks like in each phase, that the
steps from `HEADER` on only add requests other than a send, and that every step keeps `OrderInv`.
-/

namespace Sys2Proof.Machine

/-! ### The order as a property of a trace -/

/-- A poll found bytes (20_memory.md R65). -/
def Polled (trace : List Event) : Prop := ∃ a, 0 < a ∧ Event.polled a ∈ trace

/-- No `TRead` was made (20_memory.md R64). -/
def Unread (trace : List Event) : Prop := ∀ n bs, Event.read n bs ∉ trace

/-- What `OrderInv` says of a trace whatever the phase: the one send first, and no read before a poll that found
bytes. -/
structure Ordered (trace : List Event) : Prop where
  sendFirst : trace = [] ∨ ∃ frame count rest, trace = .wrote frame count :: rest ∧ writesIn rest = 0
  pollFirst : ∀ before n bs after, trace = before ++ .read n bs :: after → Polled before

/-- What `OrderInv` says of the trace of a unit in phase `p`. -/
def Reached (p : Phase) (trace : List Event) : Prop :=
  match p with
  | .idle => True
  | .send => trace = []
  | .wait => trace ≠ [] ∧ Unread trace
  | .header => Unread trace ∧ Polled trace
  | .fixed | .exSub | .exBody | .exHand | .imgDim | .imgStream => Polled trace

theorem Polled.ne_nil {trace : List Event} (h : Polled trace) : trace ≠ [] := by
  obtain ⟨a, -, hm⟩ := h
  exact List.ne_nil_of_mem hm

theorem Polled.append {trace : List Event} (h : Polled trace) (more : List Event) : Polled (trace ++ more) := by
  obtain ⟨a, ha, hm⟩ := h
  exact ⟨a, ha, List.mem_append_left _ hm⟩

theorem Unread.append {trace more : List Event} (h : Unread trace) (hm : Unread more) : Unread (trace ++ more) :=
  fun n bs hr => (List.mem_append.mp hr).elim (h n bs) (hm n bs)

theorem Reached.ne_nil {p : Phase} {trace : List Event} (h : Reached p trace) (hi : p ≠ .idle) (hs : p ≠ .send) :
    trace ≠ [] := by
  cases p with
  | idle => exact absurd rfl hi
  | send => exact absurd rfl hs
  | wait => exact h.1
  | header => exact h.2.ne_nil
  | fixed | exSub | exBody | exHand | imgDim | imgStream => exact Polled.ne_nil h

theorem Reached.unread {p : Phase} {trace : List Event} (h : Reached p trace)
    (hp : p = .send ∨ p = .wait ∨ p = .header) : Unread trace := by
  rcases hp with rfl | rfl | rfl
  · rintro n bs hr
    rw [h] at hr
    cases hr
  · exact h.2
  · exact h.1

theorem reached_of_decoding {p : Phase} (hp : p.decoding = true) (trace : List Event) :
    Reached p trace ↔ Polled trace := by
  cases p with
  | idle | send | wait | header => cases hp
  | fixed | exSub | exBody | exHand | imgDim | imgStream => exact Iff.rfl

theorem Reached.polled {p : Phase} {trace : List Event} (h : Reached p trace)
    (hp : p = .header ∨ p.decoding = true) : Polled trace := by
  rcases hp with rfl | hp
  · exact h.2
  · exact (reached_of_decoding hp trace).mp h

theorem orderInv_iff {s : State} : OrderInv s ↔ Ordered s.trace ∧ Reached s.phase s.trace := by
  constructor
  · intro h
    refine ⟨⟨h.sendFirst, h.pollFirst⟩, ?_⟩
    cases hp : s.phase with
    | idle => trivial
    | send => exact h.unsent hp
    | wait => exact ⟨h.sent (by simp [hp]) (by simp [hp]), h.unread (.inr (.inl hp))⟩
    | header => exact ⟨h.unread (.inr (.inr hp)), h.ready (.inl hp)⟩
    | fixed | exSub | exBody | exHand | imgDim | imgStream => exact h.ready (.inr (by rw [hp]; rfl))
  · rintro ⟨⟨sendFirst, pollFirst⟩, reached⟩
    exact {
      sendFirst, pollFirst, sent := reached.ne_nil, unread := reached.unread, ready := reached.polled
      unsent := fun hp => by rwa [hp] at reached }

/-- `OrderInv` speaks of `PHASE` and the trace alone. -/
theorem OrderInv.frame {s t : State} (h : OrderInv s) (hp : t.phase = s.phase) (ht : t.trace = s.trace) :
    OrderInv t := by
  rw [orderInv_iff, hp, ht]
  exact orderInv_iff.mp h

/-! ### Requests after the send -/

/-- Requests other than a send keep the order, after a poll that found bytes or with no read among them. -/
theorem Ordered.append {trace more : List Event} (h : Ordered trace) (hne : trace ≠ []) (unsent : writesIn more = 0)
    (read : Polled trace ∨ Unread more) : Ordered (trace ++ more) where
  sendFirst := by
    obtain ⟨frame, count, rest, rfl, hrest⟩ := h.sendFirst.resolve_left hne
    exact .inr ⟨frame, count, rest ++ more, rfl, by rw [writesIn_append, hrest, unsent]⟩
  pollFirst before n bs after he := by
    have late : ∀ mid, more = mid ++ .read n bs :: after → Polled (trace ++ mid) := fun mid hm =>
      (read.resolve_right fun hu => hu n bs (by simp [hm])).append mid
    rcases List.append_eq_append_iff.mp he with ⟨mid, rfl, hm⟩ | ⟨mid, rfl, hm⟩
    · exact late mid hm
    · cases mid with
      | nil => simpa using late [] hm.symm
      | cons e mid =>
        obtain ⟨rfl, -⟩ := List.cons.inj hm
        exact h.pollFirst before n bs mid rfl

/-- A trace goes on with requests other than a send. -/
def GoesOnAsking (a b : List Event) : Prop := ∃ more, b = a ++ more ∧ writesIn more = 0

theorem GoesOnAsking.refl (a : List Event) : GoesOnAsking a a := ⟨[], (List.append_nil a).symm, rfl⟩

theorem GoesOnAsking.trans {a b c : List Event} (h : GoesOnAsking a b) (g : GoesOnAsking b c) : GoesOnAsking a c := by
  obtain ⟨x, rfl, hx⟩ := h
  obtain ⟨y, rfl, hy⟩ := g
  exact ⟨x ++ y, List.append_assoc .., by rw [writesIn_append, hx, hy]⟩

theorem tRead_goesOnAsking {s u : State} {n : Nat} {bs : List Byte} (h : tRead n s = some (bs, u)) :
    GoesOnAsking s.trace u.trace := by
  obtain ⟨_, _, -, -, rfl⟩ := tRead_some h
  exact ⟨[.read n bs], rfl, rfl⟩

/-- The poll of a waiting phase: the end of the yield is no request. -/
theorem poll_trace {s u v : State} {a : Nat} (hu : resume s = some u) (hv : tAvail u = some (a, v)) :
    v.trace = s.trace ++ [.polled a] := by
  obtain ⟨y, rfl⟩ := resume_changes_yield_only hu
  obtain ⟨_, _, -, -, rfl⟩ := tAvail_some hv
  rfl

/-! ### The steps from `HEADER` on -/

/-- What the steps of `HEADER` and of the decoders do (42_executor.md R156): they end the command or go on in a decoder,
and send nothing. -/
structure Decodes (s t : State) : Prop where
  phase : t.phase = .idle ∨ t.phase.decoding = true
  requests : GoesOnAsking s.trace t.trace

theorem Decodes.after {s u t : State} (h : Decodes u t) (g : GoesOnAsking s.trace u.trace) : Decodes s t :=
  ⟨h.phase, g.trans h.requests⟩

theorem finish_decodes (code : ResCode) (s : State) : Decodes s (finish code s) := ⟨.inl rfl, .refl _⟩

theorem enterDecoder_decodes (s : State) : Decodes s (enterDecoder s) := by
  unfold enterDecoder
  rcases dispatch_cases { s with data.budgetLeft := s.hdr.len } with ⟨-, he⟩ | ⟨-, -, he⟩ | ⟨-, he⟩ <;> rw [he]
  · exact ⟨.inl rfl, .refl _⟩
  · exact ⟨.inr rfl, .refl _⟩
  · exact ⟨.inr rfl, .refl _⟩

theorem takeHeader_decodes (h : ResponseHeader) (s : State) : Decodes s (takeHeader h s) := by
  rcases takeHeader_cases h s with ⟨-, he⟩ | ⟨-, -, he⟩ | ⟨-, -, he⟩ <;> rw [he]
  · exact ⟨.inl rfl, .refl _⟩
  · exact ⟨.inl rfl, .refl _⟩
  · exact (enterDecoder_decodes _).after (.refl _)

theorem headerTurn_decodes {s t : State} (h : headerTurn s = .moves t) : Decodes s t := by
  obtain ⟨bs, u, hu, ⟨-, rfl⟩ | ⟨hd, -, -, rfl⟩⟩ := headerTurn_moves h
  · exact (finish_decodes _ u).after (tRead_goesOnAsking hu)
  · exact (takeHeader_decodes hd u).after (tRead_goesOnAsking hu)

theorem fixedTurn_decodes {s t : State} (h : fixedTurn s = .moves t) : Decodes s t := by
  obtain ⟨bs, u, hu, ⟨-, rfl⟩ | ⟨-, rfl⟩⟩ := fixedTurn_moves h
  · exact (finish_decodes _ u).after (tRead_goesOnAsking hu)
  · have read := tRead_goesOnAsking hu
    exact (finish_decodes .ok _).after read

theorem exSubTurn_decodes {s t : State} (h : exSubTurn s = .moves t) : Decodes s t := by
  obtain ⟨bs, u, hu, ⟨-, rfl⟩ | ⟨body, hand, face, -, -, rfl⟩⟩ := exSubTurn_moves h
  · exact (finish_decodes _ u).after (tRead_goesOnAsking hu)
  · exact ⟨.inr rfl, by simpa using tRead_goesOnAsking hu⟩

theorem exBodyTurn_decodes {s t : State} (h : exBodyTurn s = .moves t) : Decodes s t := by
  rcases exBodyTurn_moves h with ⟨-, rfl⟩ | ⟨-, -, bs, u, hu, ⟨-, rfl⟩ | ⟨-, rfl⟩⟩
  · exact ⟨.inr rfl, .refl _⟩
  · exact (finish_decodes _ u).after (tRead_goesOnAsking hu)
  · exact ⟨.inr rfl, by simpa using tRead_goesOnAsking hu⟩

theorem exHandTurn_decodes {s t : State} (h : exHandTurn s = .moves t) : Decodes s t := by
  rcases exHandTurn_moves h with ⟨-, -, rfl⟩ | ⟨-, -, rfl⟩ | ⟨-, -, bs, u, hu, ⟨-, rfl⟩ | ⟨-, rfl⟩⟩
  · exact ⟨.inr rfl, .refl _⟩
  · exact finish_decodes _ s
  · exact (finish_decodes _ u).after (tRead_goesOnAsking hu)
  · exact ⟨.inr rfl, by simpa using tRead_goesOnAsking hu⟩

@[simp] theorem dimensionsTaken_trace (w h : Word16) (s : State) : (dimensionsTaken w h s).trace = s.trace := by
  simp [dimensionsTaken]

theorem takeDimensions_decodes (w h : Word16) (s : State) : Decodes s (takeDimensions w h s) := by
  have same : GoesOnAsking s.trace (dimensionsTaken w h s).trace := by simpa using GoesOnAsking.refl s.trace
  rcases takeDimensions_cases w h s with ⟨-, he⟩ | ⟨-, he⟩ <;> rw [he]
  · exact (finish_decodes _ _).after same
  · exact ⟨.inr rfl, same⟩

theorem imgDimTurn_decodes {s t : State} (h : imgDimTurn s = .moves t) : Decodes s t := by
  obtain ⟨bs, u, hu, ⟨-, rfl⟩ | ⟨w0, w1, h0, h1, -, rfl⟩⟩ := imgDimTurn_moves h
  · exact (finish_decodes _ u).after (tRead_goesOnAsking hu)
  · exact (takeDimensions_decodes _ _ u).after (tRead_goesOnAsking hu)

theorem emptyDrainPoll_decodes (s : State) : Decodes s (emptyDrainPoll s) := by
  rcases emptyDrainPoll_cases s with ⟨-, he⟩ | ⟨-, he⟩ <;> rw [he]
  · exact ⟨.inl rfl, .refl _⟩
  · exact ⟨.inr rfl, [.yielded _], rfl, rfl⟩

@[simp] theorem chunkTaken_trace (k : Nat) (s : State) : (chunkTaken k s).trace = s.trace := by
  simp [chunkTaken]

theorem takeChunk_decodes (k : Nat) (s : State) : Decodes s (takeChunk k s) := by
  have same : GoesOnAsking s.trace (chunkTaken k s).trace := by simpa using GoesOnAsking.refl s.trace
  rcases takeChunk_cases k s with ⟨-, he⟩ | ⟨-, he⟩ <;> rw [he]
  · exact (finish_decodes _ _).after same
  · exact ⟨.inr rfl, same⟩

theorem imgStreamTurn_decodes {s t : State} (h : imgStreamTurn s = .moves t) : Decodes s t := by
  obtain ⟨u, a, v, hu, hv, hcase⟩ := imgStreamTurn_moves h
  have polled : GoesOnAsking s.trace v.trace := ⟨[.polled a], poll_trace hu hv, rfl⟩
  rcases hcase with ⟨-, rfl⟩ | ⟨-, bs, w, hw, hcase⟩
  · exact (emptyDrainPoll_decodes v).after polled
  · have chunk := polled.trans (tRead_goesOnAsking hw)
    rcases hcase with ⟨-, rfl⟩ | ⟨-, x, hx, rfl⟩
    · exact (emptyDrainPoll_decodes w).after chunk
    · obtain ⟨-, rfl⟩ := sinkWrite_some hx
      have sunk : GoesOnAsking w.trace (sinkTakes bs w).trace := ⟨[.sank bs], rfl, rfl⟩
      exact (takeChunk_decodes _ _).after (chunk.trans sunk)

/-! ### The turns -/

/-- A step after the poll that found bytes keeps the order (20_memory.md R78). -/
theorem Decodes.orderInv {s t : State} (d : Decodes s t) (h : OrderInv s)
    (hp : s.phase = .header ∨ s.phase.decoding = true) : OrderInv t := by
  obtain ⟨ordered, reached⟩ := orderInv_iff.mp h
  have polled := reached.polled hp
  obtain ⟨more, ht, unsent⟩ := d.requests
  rw [orderInv_iff, ht]
  refine ⟨ordered.append polled.ne_nil unsent (.inl polled), ?_⟩
  rcases d.phase with hi | hd
  · rw [hi]
    trivial
  · exact (reached_of_decoding hd _).mpr (polled.append more)

/-- An empty trace is in order, in IDLE and before the send. -/
theorem orderInv_of_no_requests {s : State} (ht : s.trace = []) (hp : s.phase = .idle ∨ s.phase = .send) :
    OrderInv s := by
  have ordered : Ordered [] := ⟨.inl rfl, fun _ _ _ _ he => absurd he.symm (by simp)⟩
  rw [orderInv_iff, ht]
  refine ⟨ordered, ?_⟩
  rcases hp with hp | hp <;> rw [hp]
  · trivial
  · rfl

/-- The accept empties the trace (log entry 24). -/
theorem idleTurn_orderInv {s t : State} (h : idleTurn s = .moves t) : OrderInv t := by
  obtain ⟨c, rest, d, -, -, -, rfl⟩ := idleTurn_moves h
  unfold admitLength
  split
  · exact orderInv_of_no_requests rfl (.inl rfl)
  · exact orderInv_of_no_requests rfl (.inr rfl)

/-- The send is the first request (20_memory.md R61). -/
theorem sendTurn_orderInv {s t : State} (h : OrderInv s) (hp : s.phase = .send) (ht : sendTurn s = .moves t) :
    OrderInv t := by
  obtain ⟨c, u, hu, hcase⟩ := sendTurn_moves ht
  have trace : u.trace = [.wrote (sendFrame s.params s.cmd) c] := by
    obtain ⟨_, _, -, -, rfl⟩ := tWrite_some hu
    exact congrArg (· ++ [Event.wrote (sendFrame s.params s.cmd) c]) (h.unsent hp)
  have unread : Unread u.trace := by
    rw [trace]
    exact fun _ _ hr => nomatch List.mem_singleton.mp hr
  have ordered : Ordered u.trace :=
    ⟨.inr ⟨_, _, [], trace, rfl⟩, fun _ n bs _ he => absurd (by simp [he]) (unread n bs)⟩
  rcases hcase with ⟨-, rfl⟩ | ⟨-, rfl⟩
  · exact orderInv_iff.mpr ⟨ordered, trivial⟩
  · have sent : u.trace ≠ [] := trace ▸ nofun
    exact orderInv_iff.mpr ⟨ordered, sent, unread⟩

/-- While the wait goes on nothing is read, and only a poll that found bytes ends it (41_poll.md R142). -/
theorem emptyWaitPoll_orderInv {s : State} (ordered : Ordered s.trace) (reached : Reached .wait s.trace) :
    OrderInv (emptyWaitPoll s) := by
  obtain ⟨sent, unread⟩ := reached
  rcases emptyWaitPoll_cases s with ⟨-, he⟩ | ⟨-, he⟩ <;> rw [he]
  · exact orderInv_iff.mpr ⟨ordered, trivial⟩
  · have quiet : Unread [.yielded s.shadow.pollIntervalMs] := fun _ _ hr => nomatch List.mem_singleton.mp hr
    exact orderInv_iff.mpr ⟨ordered.append sent rfl (.inr quiet), List.append_ne_nil_of_left_ne_nil sent _,
      unread.append quiet⟩

theorem waitTurn_orderInv {s t : State} (h : OrderInv s) (hp : s.phase = .wait) (ht : waitTurn s = .moves t) :
    OrderInv t := by
  obtain ⟨u, a, v, hu, hv, hcase⟩ := waitTurn_moves ht
  obtain ⟨ordered, reached⟩ := orderInv_iff.mp h
  rw [hp] at reached
  obtain ⟨sent, unread⟩ := reached
  have trace := poll_trace hu hv
  have quiet : Unread [.polled a] := fun _ _ hr => nomatch List.mem_singleton.mp hr
  have ordered' : Ordered v.trace := trace ▸ ordered.append sent rfl (.inr quiet)
  have unread' : Unread v.trace := trace ▸ unread.append quiet
  rcases hcase with ⟨ha, rfl⟩ | ⟨-, rfl⟩
  · have polled : Polled v.trace := ⟨a, ha, by simp [trace]⟩
    exact orderInv_iff.mpr ⟨ordered', unread', polled⟩
  · exact emptyWaitPoll_orderInv ordered' ⟨by simp [trace], unread'⟩

theorem unitTurn_orderInv {s t : State} (h : OrderInv s) (ht : unitTurn s = .moves t) : OrderInv t := by
  revert ht
  unfold unitTurn
  cases hp : s.phase with
  | idle => exact idleTurn_orderInv
  | send => exact sendTurn_orderInv h hp
  | wait => exact waitTurn_orderInv h hp
  | header => exact fun ht => (headerTurn_decodes ht).orderInv h (.inl hp)
  | fixed => exact fun ht => (fixedTurn_decodes ht).orderInv h (.inr (hp ▸ rfl))
  | exSub => exact fun ht => (exSubTurn_decodes ht).orderInv h (.inr (hp ▸ rfl))
  | exBody => exact fun ht => (exBodyTurn_decodes ht).orderInv h (.inr (hp ▸ rfl))
  | exHand => exact fun ht => (exHandTurn_decodes ht).orderInv h (.inr (hp ▸ rfl))
  | imgDim => exact fun ht => (imgDimTurn_decodes ht).orderInv h (.inr (hp ▸ rfl))
  | imgStream => exact fun ht => (imgStreamTurn_decodes ht).orderInv h (.inr (hp ▸ rfl))

/-! ### The environment, the statement -/

/-- No move of the environment makes a request; `rst` empties the trace. -/
theorem orderInv_kept : Kept OrderInv where
  tail _ _ _ h _ := h.frame rfl rfl
  turn _ _ h ht := unitTurn_orderInv h ht
  offer _ _ h := h.frame rfl rfl
  answers _ _ h := h.frame rfl rfl
  acks _ _ h := h.frame rfl rfl
  sink _ _ h := h.frame rfl rfl
  deliver _ _ h := h.frame rfl rfl
  flush s h := by
    rw [flushInbound_eq]
    exact h.frame rfl rfl
  select _ _ h := h.frame rfl rfl
  maxWaitPolls _ _ h := h.frame rfl rfl
  pollIntervalMs _ _ h := h.frame rfl rfl
  imgRetryCeil _ _ h := h.frame rfl rfl
  reset _ _ := orderInv_of_no_requests rfl (.inl rfl)

/-- Settles O51: every turn of the unit and every move of the environment keeps the order, and the agents' agenda has no
other step. -/
theorem orderInvKept : Obligations.OrderInvKept := fun _ _ h hx ht => step_keeps orderInv_kept h hx ht

end Sys2Proof.Machine
end

section
/-!
PROOFS. The encoding (30_encoding.md R90, R91, R93, R97, R105; 10_state.md R24, R40): `decode` and `encode` undo each
other, and what is no word of the table is rejected by name.
-/

namespace Sys2Proof

/-! ### Little-endian bytes (40_codec.md R122 to R124) -/

theorem b2i_toNat (lsb msb : Byte) : (b2i lsb msb).toNat = lsb.toNat + msb.toNat * 2 ^ 8 := by
  simp only [b2i, BitVec.toNat_add, BitVec.toNat_shiftLeft, BitVec.toNat_setWidth, Nat.shiftLeft_eq]
  omega

theorem le32_toNat (b0 b1 b2 b3 : Byte) :
    (le32 b0 b1 b2 b3).toNat = b0.toNat + b1.toNat * 2 ^ 8 + b2.toNat * 2 ^ 16 + b3.toNat * 2 ^ 24 := by
  simp only [le32, BitVec.toNat_add, BitVec.toNat_shiftLeft, BitVec.toNat_setWidth, Nat.shiftLeft_eq]
  omega

/-- The byte of a word from bit `k` up, as a number. -/
theorem byteAt_toNat {w : Nat} (v : BitVec w) (k : Nat) : ((v >>> k).setWidth 8).toNat = v.toNat / 2 ^ k % 2 ^ 8 := by
  simp [Nat.shiftRight_eq_div_pow]

theorem intIntoLsbMsb_fst_toNat (v : Word16) : (intIntoLsbMsb v).1.toNat = v.toNat % 2 ^ 8 := by
  rw [intIntoLsbMsb, BitVec.toNat_setWidth, BitVec.toNat_and, show (0xFF : Word16).toNat = 2 ^ 8 - 1 from rfl,
    Nat.and_two_pow_sub_one_eq_mod, Nat.mod_mod]

theorem intIntoLsbMsb_snd_toNat (v : Word16) : (intIntoLsbMsb v).2.toNat = v.toNat / 2 ^ 8 := by
  rw [intIntoLsbMsb, byteAt_toNat]
  omega

@[simp] theorem b2i_intIntoLsbMsb (v : Word16) : b2i (intIntoLsbMsb v).1 (intIntoLsbMsb v).2 = v := by
  apply BitVec.eq_of_toNat_eq
  rw [b2i_toNat, intIntoLsbMsb_fst_toNat, intIntoLsbMsb_snd_toNat]
  omega

@[simp] theorem intIntoLsbMsb_b2i (lsb msb : Byte) : intIntoLsbMsb (b2i lsb msb) = (lsb, msb) := by
  have low : (intIntoLsbMsb (b2i lsb msb)).1 = lsb := BitVec.eq_of_toNat_eq <| by
    rw [intIntoLsbMsb_fst_toNat, b2i_toNat]
    omega
  have high : (intIntoLsbMsb (b2i lsb msb)).2 = msb := BitVec.eq_of_toNat_eq <| by
    rw [intIntoLsbMsb_snd_toNat, b2i_toNat]
    omega
  exact Prod.ext low high

/-- The four length bytes of a header give its length back (R129, R127). -/
@[simp] theorem le32_bytes (v : Word32) :
    le32 (v.setWidth 8) ((v >>> 8).setWidth 8) ((v >>> 16).setWidth 8) ((v >>> 24).setWidth 8) = v := by
  apply BitVec.eq_of_toNat_eq
  rw [le32_toNat, byteAt_toNat, byteAt_toNat, byteAt_toNat, BitVec.toNat_setWidth]
  omega

@[simp] theorem decodeHeader_encodeHeader (sync status : Byte) (length : Word32) :
    decodeHeader (encodeHeader sync status length) = some ⟨sync, status, length⟩ := by
  simp [decodeHeader, encodeHeader]

/-- Six bytes are the header of what they decode to. -/
theorem encodeHeader_le32 (b0 b1 b2 b3 b4 b5 : Byte) :
    encodeHeader b0 b1 (le32 b2 b3 b4 b5) = [b0, b1, b2, b3, b4, b5] := by
  have h2 : (le32 b2 b3 b4 b5).setWidth 8 = b2 := BitVec.eq_of_toNat_eq <| by
    rw [BitVec.toNat_setWidth, le32_toNat]
    omega
  have h3 : (le32 b2 b3 b4 b5 >>> 8).setWidth 8 = b3 := BitVec.eq_of_toNat_eq <| by
    rw [byteAt_toNat, le32_toNat]
    omega
  have h4 : (le32 b2 b3 b4 b5 >>> 16).setWidth 8 = b4 := BitVec.eq_of_toNat_eq <| by
    rw [byteAt_toNat, le32_toNat]
    omega
  have h5 : (le32 b2 b3 b4 b5 >>> 24).setWidth 8 = b5 := BitVec.eq_of_toNat_eq <| by
    rw [byteAt_toNat, le32_toNat]
    omega
  rw [encodeHeader, h2, h3, h4, h5]

/-! ### Opcodes (30_encoding.md R97) -/

theorem CommandKind.mem_all (k : CommandKind) : k ∈ CommandKind.all := by
  cases k <;> decide

theorem Params.opcodes_eq_map (p : Params) : p.opcodes = CommandKind.all.map (opcodeOf p) := rfl

theorem commandOfOpcode_some {p : Params} {opcode : Byte} {k : CommandKind} (h : commandOfOpcode p opcode = some k) :
    opcodeOf p k = opcode := by
  simpa using List.find?_some h

theorem commandOfOpcode_none {p : Params} {opcode : Byte} (h : opcode ∉ p.opcodes) :
    commandOfOpcode p opcode = none := by
  refine List.find?_eq_none.mpr fun k hk he => h ?_
  rw [p.opcodes_eq_map]
  exact List.mem_map.mpr ⟨k, hk, by simpa using he⟩

/-- With the opcodes pairwise distinct (00_scope.md R7) each names its command. -/
theorem commandOfOpcode_opcodeOf {p : Params} (hp : p.opcodes.Nodup) (k : CommandKind) :
    commandOfOpcode p (opcodeOf p k) = some k := by
  have found : (commandOfOpcode p (opcodeOf p k)).isSome :=
    List.find?_isSome.mpr ⟨k, k.mem_all, beq_self_eq_true _⟩
  obtain ⟨k', hk'⟩ := Option.isSome_iff_exists.mp found
  rw [p.opcodes_eq_map] at hp
  rw [hk', List.inj_on_of_nodup_map hp k'.mem_all k.mem_all (commandOfOpcode_some hk')]

/-! ### Commands (30_encoding.md R90, R113) -/

theorem CommandKind.instr_wellFormed (k : CommandKind) (len : Word16) (payload : List Byte) (imgreq : Bool) :
    (k.instr len payload imgreq).WellFormed ↔ PayloadFits len payload := by
  cases k <;> exact Iff.rfl

/-- A command's word, for an image request that the command can carry (10_state.md R22). -/
theorem encode_instr {k : CommandKind} {imgreq : Bool} (h : imgreq = true → k = .execute) (p : Params) (len : Word16)
    (payload : List Byte) : encode p (k.instr len payload imgreq) = encodeCommand p k len payload imgreq := by
  cases imgreq with
  | false => cases k <;> rfl
  | true => rw [h rfl]; rfl

theorem imgreqOfSide_eq_some {k : CommandKind} {side : Word32} {imgreq : Bool} :
    imgreqOfSide k side = some imgreq ↔ side = (if imgreq then 1 else 0) ∧ (imgreq = true → k = .execute) := by
  by_cases low : side = 0
  · subst low
    cases imgreq <;> simp [imgreqOfSide]
  by_cases image : side = 1 ∧ k = .execute
  · obtain ⟨rfl, rfl⟩ := image
    cases imgreq <;> simp [imgreqOfSide]
  · rw [imgreqOfSide, if_neg low, if_neg image]
    cases imgreq with
    | false => simpa using low
    | true => simpa using image

theorem decodeOperands_ok {k : CommandKind} {len : Word16} {payload : List Byte} {side : Word32} {i : Instr} :
    decodeOperands k len payload side = .ok i ↔
      PayloadFits len payload ∧ ∃ imgreq, imgreqOfSide k side = some imgreq ∧ i = k.instr len payload imgreq := by
  unfold decodeOperands PayloadFits
  split_ifs with short long
  · simp only [false_iff, not_and]
    omega
  · simp only [false_iff, not_and]
    omega
  · have fits : payload.length = min len.toNat maxPayload := by omega
    cases imgreqOfSide k side <;> simp [fits, eq_comm]

/-- A frame that decodes is the frame of a command, its side signal included. -/
theorem decodeCommand_ok {p : Params} {bytes : List Byte} {side : Word32} {i : Instr}
    (h : decodeCommand p bytes side = .ok i) :
    ∃ k len payload imgreq, PayloadFits len payload ∧ (imgreq = true → k = .execute) ∧
      i = k.instr len payload imgreq ∧ encodeCommand p k len payload imgreq = ⟨.cmdFrame, bytes, side⟩ := by
  unfold decodeCommand at h
  split at h
  · rename_i sync opcode lsb msb payload
    split at h
    · cases h
    · rename_i hsync
      split at h
      · cases h
      · rename_i k hk
        obtain ⟨fits, imgreq, hside, rfl⟩ := decodeOperands_ok.mp h
        obtain ⟨rfl, himg⟩ := imgreqOfSide_eq_some.mp hside
        refine ⟨k, b2i lsb msb, payload, imgreq, fits, himg, rfl, ?_⟩
        simp [encodeCommand, frameBytes, commandOfOpcode_some hk, not_not.mp hsync]
  · cases h

/-- The frame of a command that fits the port decodes to it. -/
theorem decode_encodeCommand {p : Params} (hp : p.opcodes.Nodup) {k : CommandKind} {len : Word16} {payload : List Byte}
    {imgreq : Bool} (fits : PayloadFits len payload) (himg : imgreq = true → k = .execute) :
    decode p (encodeCommand p k len payload imgreq) = .ok (k.instr len payload imgreq) := by
  have operands := decodeOperands_ok.mpr ⟨fits, imgreq, imgreqOfSide_eq_some.mpr ⟨rfl, himg⟩, rfl⟩
  simpa [decode, encodeCommand, frameBytes, decodeCommand, commandOfOpcode_opcodeOf hp k] using operands

/-! ### The words of the other formats -/

theorem decode_respHeader (p : Params) (bytes : List Byte) (side : Word32) :
    decode p ⟨.respHeader, bytes, side⟩ = noSide side (decodeResponse bytes) := rfl

theorem decode_cmdDec (p : Params) (bytes : List Byte) (side : Word32) :
    decode p ⟨.cmdDec, bytes, side⟩ = noSide side (oneByte bytes decodeDecoder) := rfl

theorem decode_phase (p : Params) (bytes : List Byte) (side : Word32) :
    decode p ⟨.phase, bytes, side⟩ = noSide side (oneByte bytes decodePhase) := rfl

theorem decode_cfgSel (p : Params) (bytes : List Byte) (side : Word32) :
    decode p ⟨.cfgSel, bytes, side⟩ = oneByte bytes (decodeSelector · side) := rfl

theorem noSide_ok {side : Word32} {k : Except DecodeError Instr} {i : Instr} :
    noSide side k = .ok i ↔ side = 0 ∧ k = .ok i := by
  unfold noSide
  split_ifs with h
  · exact ⟨fun hk => ⟨h, hk⟩, And.right⟩
  · exact ⟨nofun, fun hk => absurd hk.1 h⟩

/-- A one-byte word that decodes: its byte, as the number whose code it is. -/
theorem oneByte_ok {bytes : List Byte} {k : Nat → Except DecodeError Instr} {i : Instr} (h : oneByte bytes k = .ok i) :
    ∃ n, bytes = [BitVec.ofNat 8 n] ∧ k n = .ok i := by
  unfold oneByte at h
  split at h
  · cases h
  · exact ⟨_, by simp, h⟩
  · cases h

theorem decodeResponse_ok {bytes : List Byte} {i : Instr} (h : decodeResponse bytes = .ok i) :
    ∃ sync status length, i = .responseHeader sync status length ∧ encodeHeader sync status length = bytes := by
  unfold decodeResponse at h
  split at h
  · rename_i hd he
    obtain ⟨b0, b1, b2, b3, b4, b5, rfl, rfl⟩ := Machine.decodeHeader_some he
    cases h
    exact ⟨b0, b1, _, rfl, encodeHeader_le32 ..⟩
  · split at h <;> cases h

/-- Each code of the three tables is the code its row is encoded with (30_encoding.md R105; 10_state.md R40, R24). -/
theorem decodeDecoder_ok {n : Nat} {i : Instr} (h : decodeDecoder n = .ok i) (p : Params) :
    encode p i = ⟨.cmdDec, [BitVec.ofNat 8 n], 0⟩ ∧ i.WellFormed := by
  unfold decodeDecoder at h
  split at h <;> cases h <;> exact ⟨rfl, trivial⟩

theorem decodePhase_ok {n : Nat} {i : Instr} (h : decodePhase n = .ok i) (p : Params) :
    encode p i = ⟨.phase, [BitVec.ofNat 8 n], 0⟩ ∧ i.WellFormed := by
  unfold decodePhase at h
  split at h
  case h_11 => split at h <;> cases h
  all_goals
    cases h
    exact ⟨rfl, trivial⟩

theorem decodeSelector_ok {n : Nat} {wdata : Word32} {i : Instr} (h : decodeSelector n wdata = .ok i) (p : Params) :
    encode p i = ⟨.cfgSel, [BitVec.ofNat 8 n], wdata⟩ ∧ i.WellFormed := by
  unfold decodeSelector at h
  split at h <;> cases h <;> exact ⟨rfl, trivial⟩

/-! ### The round trips -/

/-- Settles O1, row by row: a command by its frame, a header by its bytes, a code by its table. -/
theorem decodeEncodeRoundTrip : Obligations.DecodeEncodeRoundTrip := by
  intro p i ⟨hp, _, _⟩ hi
  cases i with
  | getVersion | setCameraAngle | getCameraAngle | setThreshold | getThreshold | setDetectionSize | getDetectionSize
  | setFaceAngle | getFaceAngle => exact decode_encodeCommand hp (imgreq := false) hi nofun
  | execute => exact decode_encodeCommand hp hi fun _ => rfl
  | responseHeader => simp [encode, decode, noSide, decodeResponse]
  | decNone | decVersion | decCameraAngle | decThreshold | decDetsize | decFaceAngle | decExec | decReserved => rfl
  | stepIdle | stepSend | stepWait | stepHeader | stepFixed | stepExSub | stepExBody | stepExHand | stepImgDim
  | stepImgStream => rfl
  | cfgWriteMaxWaitPolls | cfgWritePollIntervalMs | cfgWriteImgRetryCeil | cfgSelReserved => rfl

/-- Settles O2, format by format. -/
theorem encodeDecodeRoundTrip : Obligations.EncodeDecodeRoundTrip := by
  rintro p ⟨format, bytes, side⟩ i h
  cases format with
  | cmdFrame =>
    obtain ⟨k, len, payload, imgreq, fits, himg, rfl, hw⟩ := decodeCommand_ok h
    exact ⟨(encode_instr himg p len payload).trans hw, (k.instr_wellFormed ..).mpr fits⟩
  | respHeader =>
    rw [decode_respHeader] at h
    obtain ⟨rfl, h⟩ := noSide_ok.mp h
    obtain ⟨sync, status, length, rfl, rfl⟩ := decodeResponse_ok h
    exact ⟨rfl, trivial⟩
  | cmdDec =>
    rw [decode_cmdDec] at h
    obtain ⟨rfl, h⟩ := noSide_ok.mp h
    obtain ⟨n, rfl, hn⟩ := oneByte_ok h
    exact decodeDecoder_ok hn p
  | phase =>
    rw [decode_phase] at h
    obtain ⟨rfl, h⟩ := noSide_ok.mp h
    obtain ⟨n, rfl, hn⟩ := oneByte_ok h
    exact decodePhase_ok hn p
  | cfgSel =>
    rw [decode_cfgSel] at h
    obtain ⟨n, rfl, hn⟩ := oneByte_ok h
    exact decodeSelector_ok hn p

/-! ### Words of the tables, and words of none -/

/-- Settles O3, each word by evaluating the decoder on it. -/
theorem specWordsDecode : Obligations.SpecWordsDecode :=
  ⟨rfl, rfl, rfl, rfl, rfl, rfl, rfl, rfl, rfl, rfl⟩

theorem decodePhase_reserved {n : Nat} (hl : 10 ≤ n) (hh : n < 16) : decodePhase n = .error .reservedPhase := by
  interval_cases n <;> rfl

theorem decodeResponse_truncated {bytes : List Byte} (h : bytes.length < rspHdrLen) :
    decodeResponse bytes = .error .truncated := by
  rw [decodeResponse, Machine.decodeHeader_none.mpr (Nat.ne_of_lt h)]
  exact if_pos h

theorem decodeResponse_trailingBytes {bytes : List Byte} (h : rspHdrLen < bytes.length) :
    decodeResponse bytes = .error .trailingBytes := by
  rw [decodeResponse, Machine.decodeHeader_none.mpr (Nat.ne_of_gt h)]
  exact if_neg (Nat.lt_asymm h)

/-- Settles O4, clause by clause. -/
theorem foreignWordsRejected : Obligations.ForeignWordsRejected := by
  intro p sync op lsb msb payload bytes side code
  refine ⟨fun hop => ?_, fun hsync => if_pos hsync, decodePhase_reserved, decodeResponse_truncated,
    decodeResponse_trailingBytes⟩
  simp [decode, decodeCommand, commandOfOpcode_none hop]

end Sys2Proof
end

section
/-!
PROOFS. The response header as a row (30_encoding.md R91; 42_executor.md R164, R167) and the reserved decoder code
(30_encoding.md R110).
-/

namespace Sys2Proof.Machine

/-! ### `RESPONSE_HEADER` -/

/-- The decoder that `C_DEC` chooses (42_executor.md R167): `DEC_NONE` and `DEC_EXEC` apart, the five fixed shapes
together. -/
theorem dispatch_eq (s : State) :
    dispatch s =
      match s.cmd.dec with
      | .none => finish .ok s
      | .exec => { s with phase := .exSub }
      | _ => { s with phase := .fixed } := by
  unfold dispatch
  cases s.cmd.dec <;> rfl

/-- A full header (R164): the rule's tests in its order, then the budget and the decoder. -/
theorem takeHeader_eq (h : ResponseHeader) (s : State) :
    takeHeader h s =
      let v := { s with hdr := ⟨h.syncByte, h.status, h.payloadLength⟩ }
      let w := { v with data.budgetLeft := h.payloadLength }
      if h.syncByte ≠ s.params.sync then finish .badSync v
      else if h.status ≠ 0 then finish .device v
      else match s.cmd.dec with
        | .none => finish .ok w
        | .exec => { w with phase := .exSub }
        | _ => { w with phase := .fixed } := by
  rcases takeHeader_cases h s with ⟨hsync, he⟩ | ⟨hsync, hstatus, he⟩ | ⟨hsync, hstatus, he⟩
  · rw [he, if_pos hsync]
  · rw [he, if_neg (not_not.mpr hsync), if_pos hstatus]
  · rw [he, if_neg (not_not.mpr hsync), if_neg (not_not.mpr hstatus)]
    exact dispatch_eq _

/-- The `HEADER` step on an answer that lets all six bytes through: they are the front of the stream, with the bytes that
came meanwhile at its tail (20_memory.md R66). -/
theorem headerTurn_full {s : State} {arrived : List Byte} {rest : List Answer} {b0 b1 b2 b3 b4 b5 : Byte}
    (ha : s.link.answers = ⟨arrived, rspHdrLen⟩ :: rest)
    (hb : (s.link.inbound ++ arrived).take rspHdrLen = [b0, b1, b2, b3, b4, b5]) :
    headerTurn s = .moves (takeHeader ⟨b0, b1, le32 b2 b3 b4 b5⟩ { s with
      link := ⟨(s.link.inbound ++ arrived).drop rspHdrLen, s.link.outbound, rest⟩
      trace := s.trace ++ [.read rspHdrLen [b0, b1, b2, b3, b4, b5]] }) := by
  simp only [headerTurn, tRead_cons ha, Nat.min_self, hb, decodeHeader]

/-- The row in `HEADER` answers the unit's read, and the answers to come stay. -/
theorem execResponseHeader_read {s : State} {sync status : Byte} {length : Word32} {b0 b1 b2 b3 b4 b5 : Byte}
    (hp : s.phase = .header)
    (hb : (s.link.inbound ++ encodeHeader sync status length).take rspHdrLen = [b0, b1, b2, b3, b4, b5]) :
    exec (.responseHeader sync status length) s = .next (takeHeader ⟨b0, b1, le32 b2 b3 b4 b5⟩ { s with
      link.inbound := (s.link.inbound ++ encodeHeader sync status length).drop rspHdrLen
      trace := s.trace ++ [.read rspHdrLen [b0, b1, b2, b3, b4, b5]] }) :=
  (if_pos hp).trans (congrArg (Turn.outcome · s)
    (headerTurn_full (s := { s with link.answers := ⟨_, rspHdrLen⟩ :: s.link.answers }) rfl hb))

/-- On an empty stream the row's own bytes are the header read, and none is left. -/
theorem execResponseHeader_read_own {s : State} {sync status : Byte} {length : Word32} (hp : s.phase = .header)
    (he : s.link.inbound = []) :
    exec (.responseHeader sync status length) s = .next (takeHeader ⟨sync, status, length⟩ { s with
      trace := s.trace ++ [.read rspHdrLen (encodeHeader sync status length)] }) := by
  have own : (s.link.inbound ++ encodeHeader sync status length).take rspHdrLen = encodeHeader sync status length := by
    rw [he]
    rfl
  have left : { s.link with inbound := (s.link.inbound ++ encodeHeader sync status length).drop rspHdrLen } =
      s.link := by
    rw [he, show s.link = { s.link with inbound := [] } by rw [← he]]
    rfl
  rw [execResponseHeader_read hp own, le32_bytes, left]
  rfl

/-- Settles O34: the row's two meanings, and in `HEADER` the header that it leaves the unit to act on. -/
theorem responseHeaderArrives : Obligations.ResponseHeaderArrives := by
  intro s sync status length
  refine ⟨fun hp => if_neg hp, fun hp b0 b1 b2 b3 b4 b5 hb => ?_, fun hp he => ?_⟩
  · exact (execResponseHeader_read hp hb).trans (congrArg _ (takeHeader_eq ..))
  · exact (execResponseHeader_read_own hp he).trans (congrArg _ (takeHeader_eq ..))

/-! ### `cmd_dec = 7` -/

theorem decoderOfCode_reserved : decoderOfCode 7 = none := rfl

/-- The accept step refuses the reserved code before it looks at the configuration. -/
theorem idleTurn_reserved {s : State} {c : Command} {rest : List Command} (ho : s.offers = c :: rest)
    (hd : c.dec = 7) : idleTurn s = .refuses .reservedDecoder := by
  simp only [idleTurn, ho, hd, decoderOfCode_reserved]

/-- Settles O17: the row's meaning is the refusal, and so is the accept step's on such an offer. -/
theorem reservedDecoderRefused : Obligations.ReservedDecoderRefused :=
  ⟨fun _ => rfl, fun s _ _ _ ho hd => congrArg (Turn.outcome · s) (idleTurn_reserved ho hd)⟩

end Sys2Proof.Machine
end

section
/-!
PROOFS. The codec's operations (40_codec.md R122 to R130) as numbers and bytes; the little-endian lemmas they rest on
stand with the encoding.
-/

namespace Sys2Proof

/-! ### The numeric primitives -/

/-- The two high bytes at 0 leave `b2i` of the two low ones (R124). -/
theorem le32_low_toNat (lsb msb : Byte) : (le32 lsb msb 0 0).toNat = (b2i lsb msb).toNat := by
  simp [le32_toNat, b2i_toNat]

/-- The product of two 16-bit values never wraps in 32 bits (R125). -/
theorem mul16_toNat (w h : Word16) : (mul16 w h).toNat = w.toNat * h.toNat := by
  have exact_product : w.toNat * h.toNat < 2 ^ 16 * 2 ^ 16 := Nat.mul_lt_mul'' w.isLt h.isLt
  rw [mul16, BitVec.toNat_mul, BitVec.toNat_setWidth_of_le (by decide), BitVec.toNat_setWidth_of_le (by decide)]
  exact Nat.mod_eq_of_lt exact_product

/-- Settles O5, primitive by primitive. -/
theorem numericPrimitives : Obligations.NumericPrimitives :=
  ⟨b2i_toNat, le32_toNat, le32_low_toNat, mul16_toNat⟩

/-- Settles O6: the two bytes as quotient and remainder, and the two round trips. -/
theorem lengthSplitInverse : Obligations.LengthSplitInverse :=
  ⟨fun v => ⟨intIntoLsbMsb_fst_toNat v, intIntoLsbMsb_snd_toNat v, b2i_intIntoLsbMsb v⟩, intIntoLsbMsb_b2i⟩

/-! ### `encode` -/

theorem encodeFrame_eq_none {sync opcode : Byte} {payload : List Byte} :
    encodeFrame sync opcode payload = none ↔ maxPayload < payload.length := by
  unfold encodeFrame
  split_ifs with long
  · exact iff_of_true rfl long
  · exact iff_of_false nofun long

/-- A length of one byte is its own low byte, under a high byte of 0. -/
theorem intIntoLsbMsb_of_lt {n : Nat} (h : n < 2 ^ 8) :
    intIntoLsbMsb (BitVec.ofNat 16 n) = (BitVec.ofNat 8 n, 0) := by
  have bytes : BitVec.ofNat 16 n = b2i (BitVec.ofNat 8 n) 0 := BitVec.eq_of_toNat_eq <| by
    rw [b2i_toNat, BitVec.toNat_ofNat, BitVec.toNat_ofNat, show (0 : Byte).toNat = 0 from rfl]
    omega
  rw [bytes, intIntoLsbMsb_b2i]

theorem encodeFrame_of_le {sync opcode : Byte} {payload : List Byte} (h : payload.length ≤ maxPayload) :
    encodeFrame sync opcode payload = some ([sync, opcode, BitVec.ofNat 8 payload.length, 0] ++ payload) := by
  have oneByte : payload.length < 2 ^ 8 := h.trans_lt (by decide)
  rw [encodeFrame, if_neg (Nat.not_lt.mpr h), frameBytes, intIntoLsbMsb_of_lt oneByte]

/-- Settles O7, on either side of the bound. -/
theorem frameEncoding : Obligations.FrameEncoding := fun _ _ _ => ⟨encodeFrame_eq_none, encodeFrame_of_le⟩

/-! ### The response header -/

/-- The byte of a word from bit `k` up is the low byte of its quotient by `2 ^ k`. -/
theorem byteAt_eq_ofNat {w : Nat} (v : BitVec w) (k : Nat) :
    (v >>> k).setWidth 8 = BitVec.ofNat 8 (v.toNat / 2 ^ k) :=
  BitVec.eq_of_toNat_eq <| by rw [byteAt_toNat, BitVec.toNat_ofNat]

/-- The length's four bytes, low byte first (R129). -/
theorem encodeHeader_eq_ofNat (sync status : Byte) (length : Word32) :
    encodeHeader sync status length =
      [sync, status, BitVec.ofNat 8 length.toNat, BitVec.ofNat 8 (length.toNat / 2 ^ 8),
       BitVec.ofNat 8 (length.toNat / 2 ^ 16), BitVec.ofNat 8 (length.toNat / 2 ^ 24)] := by
  rw [encodeHeader, byteAt_eq_ofNat, byteAt_eq_ofNat, byteAt_eq_ofNat, BitVec.ofNat_toNat]

theorem encodeHeader_of_decodeHeader {b : List Byte} {h : ResponseHeader} (e : decodeHeader b = some h) :
    encodeHeader h.syncByte h.status h.payloadLength = b := by
  obtain ⟨b0, b1, b2, b3, b4, b5, rfl, rfl⟩ := Machine.decodeHeader_some e
  exact encodeHeader_le32 ..

/-- `decode_header` is defined on every six bytes (R127). -/
theorem decodeHeader_defined {b : List Byte} (hb : b.length = 6) : ∃ h, decodeHeader b = some h :=
  Option.ne_none_iff_exists'.mp fun undefined => Machine.decodeHeader_none.mp undefined hb

/-- Settles O8, direction by direction. -/
theorem headerRoundTrip : Obligations.HeaderRoundTrip := by
  refine ⟨fun sync status length => ⟨encodeHeader_eq_ofNat .., decodeHeader_encodeHeader ..⟩, fun b hb => ?_⟩
  obtain ⟨h, decoded⟩ := decodeHeader_defined hb
  exact ⟨h, decoded, encodeHeader_of_decodeHeader decoded⟩

/-! ### `validate` -/

theorem validate_badSync {sync : Byte} {h : ResponseHeader} (hsync : h.syncByte ≠ sync) :
    validate sync h = .badSync :=
  if_pos hsync

theorem validate_deviceError {sync : Byte} {h : ResponseHeader} (hsync : h.syncByte = sync) (hstatus : h.status ≠ 0) :
    validate sync h = .deviceError h.status := by
  rw [validate, if_neg (not_not.mpr hsync), if_pos hstatus]

theorem validate_valid {sync : Byte} {h : ResponseHeader} (hsync : h.syncByte = sync) (hstatus : h.status = 0) :
    validate sync h = .valid := by
  rw [validate, if_neg (not_not.mpr hsync), if_neg (not_not.mpr hstatus)]

/-- Settles O9, test by test in the rule's order. -/
theorem headerValidation : Obligations.HeaderValidation :=
  fun _ _ => ⟨validate_badSync, validate_deviceError, validate_valid⟩

end Sys2Proof
end

section
/-!
PROOFS. The poll account (41_poll.md R142, R143, R145; 20_memory.md R61): what a command has asked for in each phase, that
only an empty poll of `WAIT` ends with `ERR_TIMEOUT`, and that every step keeps `PollInv`.
-/

namespace Sys2Proof.Machine

/-! ### Counting requests -/

/-- How many sends, polls and yields a trace holds. -/
def Tally (trace : List Event) (sends polls yields : Nat) : Prop :=
  writesIn trace = sends ∧ pollsIn trace = polls ∧ yieldsIn trace = yields

theorem tally_wrote (frame : List Byte) (count : Nat) : Tally [.wrote frame count] 1 0 0 := ⟨rfl, rfl, rfl⟩

theorem tally_polled (ready : Nat) : Tally [.polled ready] 0 1 0 := ⟨rfl, rfl, rfl⟩

theorem tally_yielded (ms : Word32) : Tally [.yielded ms] 0 0 1 := ⟨rfl, rfl, rfl⟩

theorem Tally.append {a b : List Event} {w p y w' p' y' : Nat} (h : Tally a w p y) (g : Tally b w' p' y') :
    Tally (a ++ b) (w + w') (p + p') (y + y') := by
  obtain ⟨hw, hp, hy⟩ := h
  obtain ⟨gw, gp, gy⟩ := g
  exact ⟨by rw [writesIn_append, hw, gw], by rw [pollsIn_append, hp, gp], by rw [yieldsIn_append, hy, gy]⟩

/-! ### What the account speaks of -/

/-- The environment's moves reach nothing that `PollInv` counts. -/
theorem PollInv.frame {s : State} (h : PollInv s) {agenda : List Move}
    (external : ∀ m ∈ agenda, m.external = true) {cfg : ConfigRegs} {cfgSel : BitVec 2} {offers : List Command}
    {link : LinkState} {sink : List Byte} {sinkReady acks freeIdx : Nat} :
    PollInv { s with
      cfg := cfg, cfgSel := cfgSel, offers := offers, link := link, sink := sink, sinkReady := sinkReady,
      yld.acks := acks, agenda := agenda, freeIdx := freeIdx } :=
  { h with control := h.control.frame external }

/-- With a command in flight the result is not posted, so nothing has timed out (10_state.md R35). -/
theorem ControlInv.unposted {s : State} (h : ControlInv s) (hb : s.phase ≠ .idle) {q : Prop} (hv : s.res.valid = true) :
    q :=
  absurd ((h.busy hb).symm.trans hv) nofun

/-- An end other than a timeout: the account asks for at most one send. -/
theorem pollInv_of_finish {s : State} {code : ResCode} (hc : code ≠ .timeout) (control : ControlInv (finish code s))
    (oneSend : writesIn s.trace ≤ 1) : PollInv (finish code s) where
  control := control
  unsent := nofun
  waiting := nofun
  ready := nofun
  timedOut := fun _ h => absurd h hc
  oneSend := oneSend

theorem pollInv_of_wait {s : State} (control : ControlInv s) (hp : s.phase = .wait)
    (waiting : Tally s.trace 1 s.tick.toNat s.tick.toNat) : PollInv s where
  control := control
  unsent := fun h => absurd (hp.symm.trans h) nofun
  waiting := fun _ => waiting
  ready := fun h => absurd (hp.symm.trans h) nofun
  timedOut := fun hv => control.unposted (hp ▸ nofun) hv
  oneSend := Nat.le_of_eq waiting.1

/-! ### Who ends with `ERR_TIMEOUT` -/

/-- The state is no end with `ERR_TIMEOUT`. -/
def Untimed (t : State) : Prop := t.phase ≠ .idle ∨ t.res.code ≠ .timeout

theorem untimed_finish {code : ResCode} (s : State) (hc : code ≠ .timeout) : Untimed (finish code s) := .inr hc

theorem untimed_enterDecoder (s : State) : Untimed (enterDecoder s) := by
  unfold enterDecoder
  rcases dispatch_cases { s with data.budgetLeft := s.hdr.len } with ⟨-, he⟩ | ⟨-, -, he⟩ | ⟨-, he⟩ <;> rw [he]
  · exact untimed_finish _ (by decide)
  · exact .inl nofun
  · exact .inl nofun

theorem untimed_takeHeader (h : ResponseHeader) (s : State) : Untimed (takeHeader h s) := by
  rcases takeHeader_cases h s with ⟨-, he⟩ | ⟨-, -, he⟩ | ⟨-, -, he⟩ <;> rw [he]
  · exact untimed_finish _ (by decide)
  · exact untimed_finish _ (by decide)
  · exact untimed_enterDecoder _

theorem untimed_takeDimensions (w h : Word16) (s : State) : Untimed (takeDimensions w h s) := by
  rcases takeDimensions_cases w h s with ⟨-, he⟩ | ⟨-, he⟩ <;> rw [he]
  · exact untimed_finish _ (by decide)
  · exact .inl nofun

theorem untimed_emptyDrainPoll (s : State) : Untimed (emptyDrainPoll s) := by
  rcases emptyDrainPoll_cases s with ⟨-, he⟩ | ⟨-, he⟩ <;> rw [he]
  · exact untimed_finish _ (by decide)
  · exact .inl nofun

theorem untimed_takeChunk (k : Nat) (s : State) : Untimed (takeChunk k s) := by
  rcases takeChunk_cases k s with ⟨-, he⟩ | ⟨-, he⟩ <;> rw [he]
  · exact untimed_finish _ (by decide)
  · exact .inl nofun

/-- From `HEADER` on a command can fail, but not time out: the drain's polls have their own ceiling and end it with `OK`
(41_poll.md R145; 44_execute_image.md R224). -/
theorem turnOf_untimed {p : Phase} {s t : State} (hp : p = .header ∨ p.decoding = true) (h : turnOf p s = .moves t) :
    Untimed t := by
  cases p with
  | idle | send | wait => rcases hp with hp | hp <;> cases hp
  | header =>
    obtain ⟨bs, u, -, ⟨-, rfl⟩ | ⟨hd, -, -, rfl⟩⟩ := headerTurn_moves h
    · exact untimed_finish u (by decide)
    · exact untimed_takeHeader hd u
  | fixed => obtain ⟨bs, u, -, ⟨-, rfl⟩ | ⟨-, rfl⟩⟩ := fixedTurn_moves h <;> exact untimed_finish _ (by decide)
  | exSub =>
    obtain ⟨bs, u, -, ⟨-, rfl⟩ | ⟨body, hand, face, r, -, rfl⟩⟩ := exSubTurn_moves h
    · exact untimed_finish u (by decide)
    · exact .inl nofun
  | exBody =>
    rcases exBodyTurn_moves h with ⟨-, rfl⟩ | ⟨-, -, bs, u, -, ⟨-, rfl⟩ | ⟨-, rfl⟩⟩
    · exact .inl nofun
    · exact untimed_finish u (by decide)
    · exact .inl nofun
  | exHand =>
    rcases exHandTurn_moves h with ⟨-, -, rfl⟩ | ⟨-, -, rfl⟩ | ⟨-, -, bs, u, -, ⟨-, rfl⟩ | ⟨-, rfl⟩⟩
    · exact .inl nofun
    · exact untimed_finish s (by decide)
    · exact untimed_finish u (by decide)
    · exact .inl nofun
  | imgDim =>
    obtain ⟨bs, u, -, ⟨-, rfl⟩ | ⟨w0, w1, h0, h1, -, rfl⟩⟩ := imgDimTurn_moves h
    · exact untimed_finish u (by decide)
    · exact untimed_takeDimensions _ _ u
  | imgStream =>
    obtain ⟨u, a, v, -, -, ⟨-, rfl⟩ | ⟨-, bs, w, -, ⟨-, rfl⟩ | ⟨-, x, -, rfl⟩⟩⟩ := imgStreamTurn_moves h
    · exact untimed_emptyDrainPoll v
    · exact untimed_emptyDrainPoll w
    · exact untimed_takeChunk _ x

/-! ### The turns -/

/-- The accept starts the account anew (log entry 24). -/
theorem idleTurn_pollInv {s t : State} (control : ControlInv t) (h : idleTurn s = .moves t) : PollInv t := by
  obtain ⟨c, rest, d, -, -, -, rfl⟩ := idleTurn_moves h
  unfold admitLength at control ⊢
  split at control
  · next hl =>
    rw [if_pos hl]
    exact pollInv_of_finish nofun control (Nat.zero_le 1)
  · next hl =>
    rw [if_neg hl]
    exact {
      control, unsent := fun _ => rfl, waiting := nofun, ready := nofun, timedOut := nofun
      oneSend := Nat.zero_le 1 }

/-- The send is the first request, and the wait starts with `TICK` at 0 (42_executor.md R161). -/
theorem sendTurn_pollInv {s t : State} (h : PollInv s) (control : ControlInv t) (hp : s.phase = .send)
    (ht : sendTurn s = .moves t) : PollInv t := by
  obtain ⟨c, u, hu, hcase⟩ := sendTurn_moves ht
  have sent : Tally u.trace 1 0 0 := by
    obtain ⟨_, _, -, -, rfl⟩ := tWrite_some hu
    rw [h.unsent hp]
    exact tally_wrote ..
  rcases hcase with ⟨-, rfl⟩ | ⟨-, rfl⟩
  · exact pollInv_of_finish nofun control (Nat.le_of_eq sent.1)
  · exact pollInv_of_wait control rfl sent

/-- A tick of the wait does not wrap (10_state.md R41). -/
theorem tick_succ {s : State} (h : s.tick.toNat < max s.shadow.maxWaitPolls.toNat 1) :
    (s.tick + 1).toNat = s.tick.toNat + 1 := by
  have bound := s.shadow.maxWaitPolls.isLt
  exact BitVec.toNat_add_of_lt (show s.tick.toNat + 1 < 2 ^ 32 by omega)

/-- An empty poll: its tick brings the wait to its end, one yield behind, or is made good by a yield (41_poll.md
R143). -/
theorem emptyWaitPoll_pollInv {s : State} (control : ControlInv (emptyWaitPoll s))
    (below : s.tick.toNat < max s.shadow.maxWaitPolls.toNat 1)
    (polled : Tally s.trace 1 (s.tick.toNat + 1) s.tick.toNat) : PollInv (emptyWaitPoll s) := by
  have succ := tick_succ below
  rcases emptyWaitPoll_cases s with ⟨spent, he⟩ | ⟨-, he⟩ <;> rw [he] at control ⊢
  · obtain ⟨sends, polls, yields⟩ := polled
    exact {
      control, unsent := nofun, waiting := nofun, ready := nofun
      timedOut := fun _ _ => by
        refine ⟨?_, sends, polls.trans succ.symm, yields.trans ?_⟩
        · change (s.tick + 1).toNat = max s.shadow.maxWaitPolls.toNat 1
          omega
        · change s.tick.toNat = (s.tick + 1).toNat - 1
          omega
      oneSend := Nat.le_of_eq sends }
  · refine pollInv_of_wait control rfl ?_
    have yielded := polled.append (tally_yielded s.shadow.pollIntervalMs)
    change Tally (s.trace ++ [.yielded s.shadow.pollIntervalMs]) 1 (s.tick + 1).toNat (s.tick + 1).toNat
    rwa [succ]

theorem waitTurn_pollInv {s t : State} (h : PollInv s) (control : ControlInv t) (hp : s.phase = .wait)
    (ht : waitTurn s = .moves t) : PollInv t := by
  obtain ⟨u, a, v, hu, hv, hcase⟩ := waitTurn_moves ht
  have polled : Tally v.trace 1 (s.tick.toNat + 1) s.tick.toNat := by
    rw [poll_trace hu hv]
    exact Tally.append (h.waiting hp) (tally_polled a)
  have same : v.tick = s.tick ∧ v.shadow = s.shadow := by
    obtain ⟨y, rfl⟩ := resume_changes_yield_only hu
    obtain ⟨link, trace, rfl⟩ := tAvail_asked hv
    exact ⟨rfl, rfl⟩
  obtain ⟨tick, shadow⟩ := same
  rw [← tick] at polled
  rcases hcase with ⟨-, rfl⟩ | ⟨-, rfl⟩
  · exact {
      control, unsent := nofun, waiting := nofun, ready := fun _ => polled
      timedOut := fun hv => control.unposted nofun hv
      oneSend := Nat.le_of_eq polled.1 }
  · exact emptyWaitPoll_pollInv control (by rw [tick, shadow]; exact h.control.ticks hp) polled

/-- From `HEADER` on no step sends and none times out. -/
theorem Decodes.pollInv {s t : State} (d : Decodes s t) (h : PollInv s) (control : ControlInv t) (untimed : Untimed t) :
    PollInv t := by
  have later : ∀ p : Phase, p ≠ .idle → p.decoding = false → t.phase ≠ p := by
    rintro p hi hd rfl
    rcases d.phase with hp | hp
    · exact hi hp
    · exact absurd (hd.symm.trans hp) nofun
  obtain ⟨more, trace, unsent⟩ := d.requests
  exact {
    control
    unsent := fun hp => absurd hp (later _ nofun rfl)
    waiting := fun hp => absurd hp (later _ nofun rfl)
    ready := fun hp => absurd hp (later _ nofun rfl)
    timedOut := fun hv hc => by
      rcases untimed with hb | hn
      · exact control.unposted hb hv
      · exact absurd hc hn
    oneSend := by
      rw [trace, writesIn_append, unsent]
      exact h.oneSend }

theorem unitTurn_pollInv {s t : State} (h : PollInv s) (ht : unitTurn s = .moves t) : PollInv t := by
  have control := unitTurn_controlInv h.control ht
  rw [unitTurn_eq_turnOf] at ht
  cases hp : s.phase <;> rw [hp] at ht
  case idle => exact idleTurn_pollInv control ht
  case send => exact sendTurn_pollInv h control hp ht
  case wait => exact waitTurn_pollInv h control hp ht
  case header => exact (headerTurn_decodes ht).pollInv h control (turnOf_untimed (.inl rfl) ht)
  case fixed => exact (fixedTurn_decodes ht).pollInv h control (turnOf_untimed (.inr rfl) ht)
  case exSub => exact (exSubTurn_decodes ht).pollInv h control (turnOf_untimed (.inr rfl) ht)
  case exBody => exact (exBodyTurn_decodes ht).pollInv h control (turnOf_untimed (.inr rfl) ht)
  case exHand => exact (exHandTurn_decodes ht).pollInv h control (turnOf_untimed (.inr rfl) ht)
  case imgDim => exact (imgDimTurn_decodes ht).pollInv h control (turnOf_untimed (.inr rfl) ht)
  case imgStream => exact (imgStreamTurn_decodes ht).pollInv h control (turnOf_untimed (.inr rfl) ht)

/-! ### The environment, the statement -/

/-- No move of the environment makes a request; `rst` empties the trace and posts no result. -/
theorem pollInv_kept : Kept PollInv where
  tail _ _ _ h ha := h.frame fun m hm => h.control.external m (ha ▸ List.mem_cons_of_mem _ hm)
  turn _ _ h ht := unitTurn_pollInv h ht
  offer _ _ h := h.frame h.control.external
  answers _ _ h := h.frame h.control.external
  acks _ _ h := h.frame h.control.external
  sink _ _ h := h.frame h.control.external
  deliver _ _ h := h.frame h.control.external
  flush s h := by
    rw [flushInbound_eq]
    exact h.frame h.control.external
  select _ _ h := h.frame h.control.external
  maxWaitPolls _ _ h := h.frame h.control.external
  pollIntervalMs _ _ h := h.frame h.control.external
  imgRetryCeil _ _ h := h.frame h.control.external
  reset s h := (resetWith_pollInv s.params).frame h.control.external

/-- Settles O49: every turn of the unit and every move of the environment keeps the account, and the agents' agenda has
no other step. -/
theorem pollInvKept : Obligations.PollInvKept := fun _ _ h ht => step_keeps pollInv_kept h h.control.external ht

end Sys2Proof.Machine
end

section
/-!
PROOFS. The wait (41_poll.md R142 to R145): its step in full, the accept and the send that lead a command of the table to
it, and a device that stays silent until the poll budget is spent.
-/

namespace Sys2Proof.Machine

/-! ### The step -/

/-- A yield that has returned, or none, lets the unit go on (10_state.md R26). -/
theorem resume_returned {s : State} (h : s.yld.req = true → 0 < s.yld.acks) :
    resume s = some { s with
      yld := ⟨false, s.yld.ms, if s.yld.req then s.yld.acks - 1 else s.yld.acks⟩ } := by
  cases hu : resume s with
  | none =>
    obtain ⟨hr, ha⟩ := resume_none.mp hu
    exact absurd (h hr) (ha ▸ Nat.lt_irrefl 0)
  | some u =>
    rcases resume_some hu with ⟨hr, rfl⟩ | ⟨hr, k, hk, rfl⟩
    · rw [if_neg (by simp [hr]), ← hr]
    · rw [if_pos hr, hk, Nat.add_sub_cancel]

theorem waitTurn_polled {s u v : State} {a : Nat} (hu : resume s = some u) (hv : tAvail u = some (a, v)) :
    waitTurn s = .moves (if 0 < a then { v with phase := .header } else emptyWaitPoll v) := by
  simp only [waitTurn, hu, hv]
  split <;> rfl

/-- An empty poll, told by `TICK` before it. -/
theorem emptyWaitPoll_eq {s : State} (below : s.tick.toNat < max s.shadow.maxWaitPolls.toNat 1) :
    emptyWaitPoll s =
      if s.shadow.maxWaitPolls.toNat ≤ s.tick.toNat + 1 then finish .timeout { s with tick := s.tick + 1 }
      else { yieldFor s.shadow.pollIntervalMs { s with tick := s.tick + 1 } with phase := .wait } := by
  rw [← tick_succ below]
  rcases emptyWaitPoll_cases s with ⟨spent, he⟩ | ⟨left, he⟩
  · rw [he, if_pos spent]
  · rw [he, if_neg (Nat.not_le.mpr left)]

/-- Settles O20: the unit resumes, the transport answers, and an empty poll is the budget's. -/
theorem waitStep : Obligations.WaitStep := by
  intro s a rest hp ha hy below ready u
  refine ⟨tick_succ below, ?_⟩
  have polled : waitTurn s = .moves (if 0 < ready then { u with phase := .header } else emptyWaitPoll u) :=
    waitTurn_polled (resume_returned hy) (tAvail_cons ha)
  change (waitTurn s).outcome s = _
  rw [polled, emptyWaitPoll_eq (s := u) below, ← hp]
  rfl

/-! ### Runs -/

/-- A run that nothing stops takes the unit's turn. -/
theorem runUnit_moves {s t : State} (h : unitTurn s = .moves t) (fuel : Nat) :
    runUnit (fun _ => false) (fuel + 1) s = runUnit (fun _ => false) fuel t := by
  simp [runUnit, h]

theorem runUnit_waits {s : State} (h : Waiting s) (stop : State → Bool) (fuel : Nat) :
    runUnit stop fuel s = .next s := by
  cases fuel with
  | zero => rfl
  | succ n =>
    rw [runUnit, h]
    exact ite_self _

/-- A command that has ended leaves the unit to wait for the next one (42_executor.md R157). -/
theorem waiting_finish {s : State} (h : s.offers = []) (code : ResCode) : Waiting (finish code s) :=
  idleTurn_waits.mpr h

/-! ### A command of the table on its way to the wait -/

theorem decoderOfCode_decoderCode (d : Decoder) : decoderOfCode (decoderCode d) = some d := by
  cases d <;> rfl

/-- The bytes below the latched length are those latched. -/
theorem latchBytes_take {n draw len : Nat} {bytes : List Byte} (hn : len ≤ n) (hb : len ≤ bytes.length) :
    (latchBytes n draw len bytes).toList.take len = bytes.take len := by
  refine List.ext_getElem (by simp [hn, hb]) fun i hi _ => ?_
  have below : i < len := (List.length_take_le ..).trans_lt' hi
  have held : i < bytes.length := below.trans_le hb
  simp [latchBytes, below, held]

/-- The port shows a payload that fits it (10_state.md R22). -/
theorem portPayload_take {payload : List Byte} (h : payload.length ≤ 28) :
    (portPayload payload).toList.take payload.length = payload := by
  refine List.ext_getElem (by simp [h]) fun i _ hi => ?_
  simp [portPayload, hi]

/-- The accept step on a legal command of admissible length, its configuration written (42_executor.md R158). -/
theorem idleTurn_admits {s : State} {c : Command} {rest : List Command} {d : Decoder} (ho : s.offers = c :: rest)
    (hd : decoderOfCode c.dec = some d) (hc : configReady d c.imgreq s.cfg = true) (hl : c.len.toNat ≤ 28) :
    idleTurn s = .moves { latchCommand d c { s with offers := rest } with phase := .send } := by
  simp only [idleTurn, ho, hd, hc, if_true]
  exact congrArg Turn.moves (if_neg (Nat.not_lt.mpr hl))

/-- A command of the table, accepted. -/
def accepted (k : CommandKind) (len : Word16) (payload : List Byte) (imgreq : Bool) (s : State) : State :=
  { latchCommand (boundDecoder k) (commandOf s.params k len payload imgreq) s with phase := .send }

/-- A ready host's command of admissible length is accepted. -/
theorem unitTurn_accepts {s : State} (hs : HostReady s) {len : Word16} (hl : len.toNat ≤ 28) (k : CommandKind)
    (payload : List Byte) (imgreq : Bool) :
    unitTurn (offerCommand (commandOf s.params k len payload imgreq) s) =
      .moves (accepted k len payload imgreq s) := by
  obtain ⟨hpolls, hms, hceil⟩ := hs.configured
  have configured : configReady (boundDecoder k) imgreq s.cfg = true := by simp [configReady, hpolls, hms, hceil]
  have taken : { offerCommand (commandOf s.params k len payload imgreq) s with offers := [] } = s := by
    rw [← hs.free]
    rfl
  have offers : (offerCommand (commandOf s.params k len payload imgreq) s).offers =
      [commandOf s.params k len payload imgreq] := by
    rw [offerCommand_offers, hs.free, List.nil_append]
  have admits := idleTurn_admits offers (decoderOfCode_decoderCode (boundDecoder k)) configured hl
  rw [taken] at admits
  rw [unitTurn_eq_turnOf, offerCommand_phase, hs.idle]
  exact admits

/-- The frame of a command of the table (42_executor.md R158, R161). -/
theorem sendFrame_accepted {payload : List Byte} {len : Word16} (hl : len.toNat ≤ 28)
    (hp : payload.length = len.toNat) (k : CommandKind) (imgreq : Bool) (s : State) :
    sendFrame (accepted k len payload imgreq s).params (accepted k len payload imgreq s).cmd =
      frameBytes s.params.sync (opcodeOf s.params k) len payload := by
  have held : (latchBytes 28 s.freeIdx len.toNat (portPayload payload).toList).toList.take len.toNat = payload := by
    rw [latchBytes_take hl (by simpa using hl), ← hp, portPayload_take (hp.trans_le hl)]
  exact congrArg (frameBytes s.params.sync (opcodeOf s.params k) len) held

/-- A frame taken whole leads to the wait (42_executor.md R161). -/
theorem sendTurn_whole {s : State} {a : Answer} {rest : List Answer} (ha : s.link.answers = a :: rest)
    (hl : s.cmd.len.toNat ≤ 28) (hc : 32 ≤ a.count) :
    sendTurn s = .moves { s with
      tick := 0
      phase := .wait
      link := ⟨s.link.inbound ++ a.arrived, s.link.outbound ++ sendFrame s.params s.cmd, rest⟩
      trace := s.trace ++ [.wrote (sendFrame s.params s.cmd) (sendFrame s.params s.cmd).length] } := by
  have length : (sendFrame s.params s.cmd).length = cmdHdrLen + s.cmd.len.toNat := by
    have payload : (s.cmd.payload.toList.take s.cmd.len.toNat).length = s.cmd.len.toNat := by simpa using hl
    rw [sendFrame, frameBytes, List.length_append, payload]
    rfl
  have whole : min a.count (sendFrame s.params s.cmd).length = (sendFrame s.params s.cmd).length :=
    Nat.min_eq_right (by rw [length, cmdHdrLen]; omega)
  have written := tWrite_cons (f := sendFrame s.params s.cmd) ha
  rw [whole, List.take_length] at written
  simp only [sendTurn, written]
  exact if_neg (Nat.not_lt.mpr length.ge)

/-- A command of the table at the start of its wait: accepted, and its frame taken whole by the answer `sent`. -/
def waitStart (k : CommandKind) (len : Word16) (payload : List Byte) (imgreq : Bool) (sent : Answer)
    (rest : List Answer) (s : State) : State :=
  let frame := frameBytes s.params.sync (opcodeOf s.params k) len payload
  { accepted k len payload imgreq s with
    tick := 0
    phase := .wait
    link := ⟨s.link.inbound ++ sent.arrived, s.link.outbound ++ frame, rest⟩
    trace := [.wrote frame frame.length] }

/-- A ready host's command of admissible length, its frame taken whole, runs from the start of the wait; `cmd_imgreq` is
`EXECUTE`'s alone (10_state.md R22). -/
theorem exec_command_reaches_wait {s : State} (hs : HostReady s) {len : Word16} (hl : len.toNat ≤ 28)
    {payload : List Byte} (hp : payload.length = len.toNat) {sent : Answer} {rest : List Answer}
    (ha : s.link.answers = sent :: rest) (hc : 32 ≤ sent.count) (k : CommandKind) (imgreq : Bool) :
    exec (k.instr len payload imgreq) s = runUnit (fun _ => false) (rest.length + 4)
      (waitStart k len payload (if k = .execute then imgreq else false) sent rest s) := by
  rw [exec_command]
  generalize (if k = .execute then imgreq else false) = asked
  have sends : unitTurn (accepted k len payload asked s) = .moves (waitStart k len payload asked sent rest s) := by
    have sends := sendTurn_whole (s := accepted k len payload asked s) ha hl hc
    rwa [sendFrame_accepted hl hp] at sends
  have budget : turnBudget (offerCommand (commandOf s.params k len payload asked) s) = rest.length + 4 + 1 + 1 := by
    simp [turnBudget, ha, hs.free]
  unfold presentCommand runUntilWaits
  rw [budget, runUnit_moves (unitTurn_accepts hs hl k payload asked), runUnit_moves sends]

/-! ### A silent device -/

/-- The unit at a poll of the wait, its yield returned, with exactly the answers `polls` until the budget is spent: each
finds nothing, and the scheduler returns between each two. -/
structure FacesSilence (polls rest : List Answer) (s : State) : Prop where
  phase : s.phase = .wait
  awake : s.yld.req = false
  answers : s.link.answers = polls ++ rest
  silent : ∀ a ∈ polls, a.count = 0
  budget : s.tick.toNat + polls.length = max s.shadow.maxWaitPolls.toNat 1
  returns : polls.length - 1 ≤ s.yld.acks

/-- `t` is `s` after `polls` that found nothing, with a yield between each two (41_poll.md R143, R144). -/
def AfterSilence (polls rest : List Answer) (s t : State) : Prop :=
  ∃ ms trace, Tally trace 0 polls.length (polls.length - 1) ∧ readIn trace = [] ∧ t = { s with
    tick := BitVec.ofNat 32 (s.tick.toNat + polls.length)
    link := ⟨s.link.inbound ++ polls.flatMap (·.arrived), s.link.outbound, rest⟩
    yld := ⟨false, ms, s.yld.acks - (polls.length - 1)⟩
    trace := s.trace ++ trace }

theorem AfterSilence.offers {polls rest : List Answer} {s t : State} (h : AfterSilence polls rest s t) :
    t.offers = s.offers := by
  obtain ⟨_, _, -, -, rfl⟩ := h
  rfl

/-- The unit after one poll that found nothing, its tick counted. -/
def pollEmpty (a : Answer) (rest : List Answer) (s : State) : State :=
  { s with
    tick := s.tick + 1
    link := ⟨s.link.inbound ++ a.arrived, s.link.outbound, rest⟩
    trace := s.trace ++ [.polled 0] }

/-- The unit back from the yield after such a poll. -/
def pollAgain (a : Answer) (rest : List Answer) (s : State) : State :=
  { pollEmpty a rest s with
    yld := ⟨false, s.shadow.pollIntervalMs, s.yld.acks - 1⟩
    trace := s.trace ++ [.polled 0, .yielded s.shadow.pollIntervalMs] }

theorem FacesSilence.below {polls rest : List Answer} {s : State} (h : FacesSilence polls rest s) (hne : polls ≠ []) :
    s.tick.toNat < max s.shadow.maxWaitPolls.toNat 1 := by
  have some_left := List.length_pos_of_ne_nil hne
  have budget := h.budget
  omega

/-- A turn at a poll that will find nothing. -/
theorem waitTurn_silent {a : Answer} {polls rest : List Answer} {s u : State} (hu : resume s = some u)
    (h : FacesSilence (a :: polls) rest u) :
    waitTurn s = .moves
      (if u.shadow.maxWaitPolls.toNat ≤ u.tick.toNat + 1 then finish .timeout (pollEmpty a (polls ++ rest) u)
      else yieldFor u.shadow.pollIntervalMs (pollEmpty a (polls ++ rest) u)) := by
  have polled := waitTurn_polled hu (tAvail_cons h.answers)
  rw [h.silent a List.mem_cons_self, Nat.zero_min, if_neg (Nat.lt_irrefl 0)] at polled
  refine polled.trans (congrArg Turn.moves ?_)
  refine (emptyWaitPoll_eq (s := { pollEmpty a (polls ++ rest) u with tick := u.tick }) (h.below nofun)).trans ?_
  rw [← h.phase]
  rfl

theorem FacesSilence.pollAgain {a b : Answer} {polls rest : List Answer} {s : State}
    (h : FacesSilence (a :: b :: polls) rest s) :
    FacesSilence (b :: polls) rest (pollAgain a (b :: polls ++ rest) s) where
  phase := h.phase
  awake := rfl
  answers := rfl
  silent c hc := h.silent c (List.mem_cons_of_mem _ hc)
  budget := by
    change (s.tick + 1).toNat + (b :: polls).length = max s.shadow.maxWaitPolls.toNat 1
    rw [tick_succ (h.below nofun), ← h.budget, List.length_cons (a := a)]
    omega
  returns := Nat.sub_le_sub_right h.returns 1

/-- `TICK` as the account has it, a poll later. -/
theorem FacesSilence.tick {polls rest : List Answer} {s : State} (h : FacesSilence polls rest s) (hne : polls ≠ [])
    (n : Nat) : BitVec.ofNat 32 ((s.tick + 1).toNat + n) = BitVec.ofNat 32 (s.tick.toNat + (n + 1)) := by
  rw [tick_succ (h.below hne), Nat.add_assoc, Nat.add_comm 1]

theorem afterSilence_last {a : Answer} {rest : List Answer} {s : State} (h : FacesSilence [a] rest s) :
    AfterSilence [a] rest s (pollEmpty a rest s) := by
  have tick : s.tick + 1 = BitVec.ofNat 32 (s.tick.toNat + 1) := by
    rw [← h.tick nofun, Nat.add_zero, BitVec.ofNat_toNat, BitVec.setWidth_eq]
  refine ⟨s.yld.ms, [.polled 0], tally_polled 0, rfl, ?_⟩
  simp only [List.length_singleton, ← tick, ← h.awake, List.flatMap_singleton, Nat.sub_self, Nat.sub_zero]
  rfl

theorem AfterSilence.cons {a b : Answer} {polls rest : List Answer} {s t : State}
    (h : FacesSilence (a :: b :: polls) rest s)
    (g : AfterSilence (b :: polls) rest (pollAgain a (b :: polls ++ rest) s) t) :
    AfterSilence (a :: b :: polls) rest s t := by
  obtain ⟨ms, trace, tally, unread, rfl⟩ := g
  have first := (tally_polled 0).append (tally_yielded s.shadow.pollIntervalMs)
  refine ⟨ms, [.polled 0, .yielded s.shadow.pollIntervalMs] ++ trace, ?_, unread, ?_⟩
  · have all := first.append tally
    simpa [Nat.add_comm] using all
  · have tick := h.tick nofun (polls.length + 1)
    simp only [pollAgain, pollEmpty, tick, List.length_cons, List.flatMap_cons, List.append_assoc, Nat.sub_sub,
      Nat.add_sub_cancel, Nat.add_comm 1]

/-- The wait under silence runs to its timeout. -/
theorem runUnit_silent {polls rest : List Answer} (hne : polls ≠ []) {s u : State} (hp : s.phase = .wait)
    (hu : resume s = some u) (h : FacesSilence polls rest u) :
    ∃ t, AfterSilence polls rest u t ∧ ∀ fuel,
      runUnit (fun _ => false) (polls.length + fuel) s = runUnit (fun _ => false) fuel (finish .timeout t) := by
  induction polls generalizing s u with
  | nil => exact absurd rfl hne
  | cons a polls ih =>
    have turn : unitTurn s = waitTurn s := by rw [unitTurn_eq_turnOf, hp]; rfl
    rw [waitTurn_silent hu h] at turn
    have budget := h.budget
    cases polls with
    | nil =>
      rw [List.length_singleton] at budget
      rw [if_pos (by omega)] at turn
      exact ⟨_, afterSilence_last h, fun fuel => by
        rw [Nat.add_comm]
        exact runUnit_moves turn fuel⟩
    | cons b polls =>
      rw [List.length_cons, List.length_cons] at budget
      rw [if_neg (by omega)] at turn
      have returned : 0 < u.yld.acks := (Nat.succ_pos _).trans_le h.returns
      have resumed : resume (yieldFor u.shadow.pollIntervalMs (pollEmpty a (b :: polls ++ rest) u)) =
          some (pollAgain a (b :: polls ++ rest) u) := by
        refine (resume_returned (s := yieldFor _ (pollEmpty ..)) fun _ => returned).trans ?_
        simp [pollAgain, pollEmpty, yieldFor, record]
      obtain ⟨t, after, run⟩ := ih nofun (s := yieldFor _ (pollEmpty ..)) h.phase resumed h.pollAgain
      refine ⟨t, after.cons h, fun fuel => ?_⟩
      rw [List.length_cons, Nat.add_right_comm, runUnit_moves turn]
      exact run fuel

/-- A silent device as the start of the wait meets it. -/
theorem waitStart_facesSilence {s : State} (hs : HostReady s) {polls : List Answer}
    (hN : polls.length = max s.cfg.maxWaitPolls.toNat 1) (hzero : ∀ a ∈ polls, a.count = 0)
    (hacks : polls.length - 1 ≤ s.yld.acks) (k : CommandKind) (len : Word16) (payload : List Byte) (imgreq : Bool)
    (sent : Answer) (rest : List Answer) :
    FacesSilence polls rest (waitStart k len payload imgreq sent (polls ++ rest) s) where
  phase := rfl
  awake := hs.awake
  answers := rfl
  silent := hzero
  budget := by
    obtain ⟨written, -⟩ := hs.configured
    change 0 + polls.length = max (heldConfig s.cfg).maxWaitPolls.toNat 1
    rw [Nat.zero_add, hN, heldConfig_maxWaitPolls written]
  returns := hacks

/-! ### The statement -/

/-- Settles O44: the accept, the whole send, the silence to its end, and IDLE with nothing on the port. -/
theorem timeoutPollCount : Obligations.TimeoutPollCount := by
  intro s k len payload imgreq sent polls rest hs hl hpay ha hsent hN hzero hacks
  rw [List.cons_append] at ha
  rw [exec_command_reaches_wait hs hl hpay ha hsent]
  generalize (if k = .execute then imgreq else false) = asked
  have silence := waitStart_facesSilence hs hN hzero hacks k len payload asked sent rest
  have asks : polls ≠ [] := List.ne_nil_of_length_pos (by omega)
  obtain ⟨t, after, run⟩ := runUnit_silent asks silence.phase (resume_free silence.awake) silence
  have ended : runUnit (fun _ => false) ((polls ++ rest).length + 4)
      (waitStart k len payload asked sent (polls ++ rest) s) = .next (finish .timeout t) := by
    rw [List.length_append, Nat.add_assoc, run]
    exact runUnit_waits (waiting_finish (after.offers.trans hs.free) .timeout) ..
  obtain ⟨ms, trace, tally, unread, rfl⟩ := after
  have tick : (BitVec.ofNat 32 (0 + polls.length)).toNat = polls.length := by
    have bound := s.cfg.maxWaitPolls.isLt
    rw [Nat.zero_add, BitVec.toNat_ofNat, Nat.mod_eq_of_lt (by omega)]
  have written := tally_wrote (frameBytes s.params.sync (opcodeOf s.params k) len payload)
  obtain ⟨sends, polled, yielded⟩ := (written _).append tally
  exact ⟨_, ended, rfl, rfl, rfl, rfl, tick, sends, polled.trans (Nat.zero_add _), yielded.trans (Nat.zero_add _),
    unread, rfl, rfl, rfl, rfl, rfl, rfl, rfl, rfl, rfl, rfl, rfl⟩

end Sys2Proof.Machine
end

section
/-!
PROOFS. The configuration channel (41_poll.md R147, R148; 10_state.md R24, R33): its writes, and that no turn of the unit
changes what it reads.
-/

namespace Sys2Proof.Machine

/-- Settles O31: each row is its one write, the selector driven. -/
theorem configurationWrites : Obligations.ConfigurationWrites := fun _ _ => ⟨rfl, rfl, rfl⟩

/-- What the channel reads is the configuration's and the selector's alone (R148). -/
theorem cfgRdata_congr {s t : State} (hcfg : t.cfg = s.cfg) (hsel : t.cfgSel = s.cfgSel) :
    t.cfgRdata = s.cfgRdata := by
  unfold State.cfgRdata
  rw [hcfg, hsel]

/-- The unit writes neither: it runs on the shadows (10_state.md R33). -/
theorem unitTurn_cfgRdata {s t : State} (h : unitTurn s = .moves t) : t.cfgRdata = s.cfgRdata := by
  rw [unitTurn_eq_turnOf] at h
  obtain ⟨u, w, hc⟩ := turnOf_writes h
  obtain ⟨cfg, cfgSel, -, -⟩ := w.kept
  obtain ⟨phase, data, res, freeIdx, rfl⟩ := hc.frame
  exact cfgRdata_congr cfg cfgSel

/-- Settles O33: a write is read back at once, and every turn of the run keeps what is read. -/
theorem configurationReadBack : Obligations.ConfigurationReadBack := by
  intro s t u v ht hu
  have read : t.cfgRdata = v := by
    rcases ht with ht | ht | ht <;> cases ht <;> rfl
  exact ⟨read, runUnit_keeps (P := fun x => x.cfgRdata = v) (fun _ _ hs h => (unitTurn_cfgRdata h).trans hs) read hu⟩

end Sys2Proof.Machine
end

section
/-!
PROOFS. Termination of the unit's run (42_executor.md R171): the measure each turn lowers, the runs it bounds, and the
statements about a run's end and about the offers that wait for it.
-/

namespace Sys2Proof.Machine

/-! ### The measure -/

/-- The turns a command can still take without an answer of the transport: the moves out of `EX_BODY` and out of
`EX_HAND` (42_executor.md R171; 44_execute_image.md R218, R219). -/
def Phase.freeMoves (p : Phase) : Nat :=
  match p with
  | .send | .wait | .header | .exSub | .exBody => 2
  | .exHand => 1
  | .idle | .fixed | .imgDim | .imgStream => 0

theorem Phase.freeMoves_le (p : Phase) : p.freeMoves ≤ 2 := by
  cases p <;> decide

/-- A bound on the turns the unit can take from phase `p` before it waits: one for each answer there is, three for each
offer (the accept and the two free moves of its command), and the free moves of the command in flight. -/
def workIn (p : Phase) (s : State) : Nat := s.link.answers.length + 3 * s.offers.length + p.freeMoves

theorem workIn_le_turnBudget (s : State) : workIn s.phase s ≤ turnBudget s :=
  Nat.add_le_add_left s.phase.freeMoves_le _

/-- A request that is answered takes its answer. -/
theorem tWrite_answers {s u : State} {f : List Byte} {c : Nat} (h : tWrite f s = some (c, u)) :
    u.link.answers.length < s.link.answers.length := by
  obtain ⟨a, rest, ha, -, rfl⟩ := tWrite_some h
  simp [ha]

theorem tAvail_answers {s u : State} {n : Nat} (h : tAvail s = some (n, u)) :
    u.link.answers.length < s.link.answers.length := by
  obtain ⟨a, rest, ha, -, rfl⟩ := tAvail_some h
  simp [ha]

theorem tRead_answers {s u : State} {n : Nat} {bs : List Byte} (h : tRead n s = some (bs, u)) :
    u.link.answers.length < s.link.answers.length := by
  obtain ⟨a, rest, ha, -, rfl⟩ := tRead_some h
  simp [ha]

theorem workIn_lt_of_asked {s u : State} (h : Asked s u) (ha : u.link.answers.length < s.link.answers.length)
    (p : Phase) : workIn p u < workIn p s := by
  obtain ⟨link, trace, rfl⟩ := h
  exact Nat.add_lt_add_right (Nat.add_lt_add_right ha _) _

theorem tWrite_work {s u : State} {f : List Byte} {c : Nat} (h : tWrite f s = some (c, u)) (p : Phase) :
    workIn p u < workIn p s :=
  workIn_lt_of_asked (tWrite_asked h) (tWrite_answers h) p

theorem tAvail_work {s u : State} {n : Nat} (h : tAvail s = some (n, u)) (p : Phase) : workIn p u < workIn p s :=
  workIn_lt_of_asked (tAvail_asked h) (tAvail_answers h) p

theorem tRead_work {s u : State} {n : Nat} {bs : List Byte} (h : tRead n s = some (bs, u)) (p : Phase) :
    workIn p u < workIn p s :=
  workIn_lt_of_asked (tRead_asked h) (tRead_answers h) p

theorem resume_work {s u : State} (h : resume s = some u) (p : Phase) : workIn p u = workIn p s := by
  obtain ⟨y, rfl⟩ := resume_changes_yield_only h
  rfl

/-- What leaves the transport and the offers alone, and enters no phase with more free moves, adds no work. -/
theorem workIn_le_of_frame {p : Phase} {u t : State} (hl : t.link = u.link) (ho : t.offers = u.offers)
    (hp : t.phase.freeMoves ≤ p.freeMoves) : workIn t.phase t ≤ workIn p u := by
  rw [workIn, workIn, hl, ho]
  exact Nat.add_le_add_left hp _

theorem workIn_finish_le (code : ResCode) (p : Phase) (u : State) :
    workIn (finish code u).phase (finish code u) ≤ workIn p u :=
  workIn_le_of_frame rfl rfl (Nat.zero_le _)

/-! ### Every turn lowers it -/

theorem admitLength_frame (s : State) : (admitLength s).link = s.link ∧ (admitLength s).offers = s.offers := by
  unfold admitLength
  split <;> exact ⟨rfl, rfl⟩

/-- The accept trades an offer for the free moves of its command. -/
theorem idleTurn_work {s t : State} (h : idleTurn s = .moves t) : workIn t.phase t < workIn .idle s := by
  obtain ⟨c, rest, d, ho, -, -, rfl⟩ := idleTurn_moves h
  obtain ⟨link, offers⟩ := admitLength_frame (latchCommand d c { s with offers := rest })
  refine (workIn_le_of_frame (p := .send) link offers (Phase.freeMoves_le _)).trans_lt ?_
  simp only [workIn, latchCommand_link, latchCommand_offers, ho, List.length_cons, Phase.freeMoves]
  omega

theorem sendTurn_work {s t : State} (h : sendTurn s = .moves t) : workIn t.phase t < workIn .send s := by
  obtain ⟨c, u, hu, ⟨-, rfl⟩ | ⟨-, rfl⟩⟩ := sendTurn_moves h
  · exact (workIn_finish_le ..).trans_lt (tWrite_work hu .send)
  · exact tWrite_work hu .send

theorem waitTurn_work {s t : State} (h : waitTurn s = .moves t) : workIn t.phase t < workIn .wait s := by
  obtain ⟨u, a, v, hu, hv, hcase⟩ := waitTurn_moves h
  rw [← resume_work hu]
  refine lt_of_le_of_lt ?_ (tAvail_work hv .wait)
  rcases hcase with ⟨-, rfl⟩ | ⟨-, rfl⟩
  · exact Nat.le_refl _
  · rcases emptyWaitPoll_cases v with ⟨-, he⟩ | ⟨-, he⟩ <;> rw [he]
    · exact workIn_finish_le _ .wait { v with tick := v.tick + 1 }
    · exact Nat.le_refl _

theorem takeHeader_frame (h : ResponseHeader) (u : State) :
    (takeHeader h u).link = u.link ∧ (takeHeader h u).offers = u.offers := by
  rw [takeHeader_eq]
  dsimp only
  split_ifs
  · exact ⟨rfl, rfl⟩
  · exact ⟨rfl, rfl⟩
  · cases u.cmd.dec <;> exact ⟨rfl, rfl⟩

theorem headerTurn_work {s t : State} (h : headerTurn s = .moves t) : workIn t.phase t < workIn .header s := by
  obtain ⟨bs, u, hu, ⟨-, rfl⟩ | ⟨hd, -, -, rfl⟩⟩ := headerTurn_moves h
  · exact (workIn_finish_le ..).trans_lt (tRead_work hu .header)
  · obtain ⟨link, offers⟩ := takeHeader_frame hd u
    exact (tRead_work hu .header).trans_le' (workIn_le_of_frame link offers (Phase.freeMoves_le _))

theorem fixedTurn_work {s t : State} (h : fixedTurn s = .moves t) : workIn t.phase t < workIn .fixed s := by
  obtain ⟨bs, u, hu, ⟨-, rfl⟩ | ⟨-, rfl⟩⟩ := fixedTurn_moves h <;> exact tRead_work hu .fixed

theorem exSubTurn_work {s t : State} (h : exSubTurn s = .moves t) : workIn t.phase t < workIn .exSub s := by
  obtain ⟨bs, u, hu, ⟨-, rfl⟩ | ⟨_, _, _, _, -, rfl⟩⟩ := exSubTurn_moves h
  · exact (workIn_finish_le ..).trans_lt (tRead_work hu .exSub)
  · exact (tRead_work hu .exSub).trans_le' (workIn_le_of_frame (by simp) (by simp) (Nat.le_refl 2))

theorem exBodyTurn_work {s t : State} (h : exBodyTurn s = .moves t) : workIn t.phase t < workIn .exBody s := by
  rcases exBodyTurn_moves h with ⟨-, rfl⟩ | ⟨-, -, bs, u, hu, ⟨-, rfl⟩ | ⟨-, rfl⟩⟩
  · exact Nat.lt_succ_self _
  · exact (workIn_finish_le ..).trans_lt (tRead_work hu .exBody)
  · exact (tRead_work hu .exBody).trans_le' (workIn_le_of_frame (by simp) (by simp) (Nat.le_refl 2))

theorem exHandTurn_work {s t : State} (h : exHandTurn s = .moves t) : workIn t.phase t < workIn .exHand s := by
  rcases exHandTurn_moves h with ⟨-, -, rfl⟩ | ⟨-, -, rfl⟩ | ⟨-, -, bs, u, hu, ⟨-, rfl⟩ | ⟨-, rfl⟩⟩
  · exact Nat.lt_succ_self _
  · exact Nat.lt_succ_self _
  · exact (workIn_finish_le ..).trans_lt (tRead_work hu .exHand)
  · exact (tRead_work hu .exHand).trans_le' (workIn_le_of_frame (by simp) (by simp) (Nat.le_refl 1))

theorem imgDimTurn_work {s t : State} (h : imgDimTurn s = .moves t) : workIn t.phase t < workIn .imgDim s := by
  obtain ⟨bs, u, hu, ⟨-, rfl⟩ | ⟨w0, w1, h0, h1, -, rfl⟩⟩ := imgDimTurn_moves h
  · exact tRead_work hu .imgDim
  · refine lt_of_le_of_lt ?_ (tRead_work hu .imgDim)
    rcases takeDimensions_cases (b2i w0 w1) (b2i h0 h1) u with ⟨-, he⟩ | ⟨-, he⟩ <;> rw [he] <;>
      exact workIn_le_of_frame (by simp [dimensionsTaken]) (by simp [dimensionsTaken]) (Nat.le_refl 0)

theorem emptyDrainPoll_work (v : State) : workIn (emptyDrainPoll v).phase (emptyDrainPoll v) ≤ workIn .imgStream v := by
  rcases emptyDrainPoll_cases v with ⟨-, he⟩ | ⟨-, he⟩ <;> rw [he] <;> exact Nat.le_refl _

theorem takeChunk_work (bs : List Byte) (v : State) :
    workIn (takeChunk bs.length (sinkTakes bs v)).phase (takeChunk bs.length (sinkTakes bs v)) ≤
      workIn .imgStream v := by
  rcases takeChunk_cases bs.length (sinkTakes bs v) with ⟨-, he⟩ | ⟨-, he⟩ <;> rw [he] <;>
    exact workIn_le_of_frame (by simp [chunkTaken]) (by simp [chunkTaken]) (Nat.le_refl 0)

theorem imgStreamTurn_work {s t : State} (h : imgStreamTurn s = .moves t) : workIn t.phase t < workIn .imgStream s := by
  obtain ⟨u, a, v, hu, hv, hcase⟩ := imgStreamTurn_moves h
  rw [← resume_work hu]
  have polled := tAvail_work hv .imgStream
  rcases hcase with ⟨-, rfl⟩ | ⟨-, bs, w, hw, hcase⟩
  · exact (emptyDrainPoll_work v).trans_lt polled
  · have chunk := (tRead_work hw .imgStream).trans polled
    rcases hcase with ⟨-, rfl⟩ | ⟨-, x, hx, rfl⟩
    · exact (emptyDrainPoll_work w).trans_lt chunk
    · obtain ⟨-, rfl⟩ := sinkWrite_some hx
      exact (takeChunk_work bs w).trans_lt chunk

theorem turnOf_work {p : Phase} {s t : State} (h : turnOf p s = .moves t) : workIn t.phase t < workIn p s := by
  cases p with
  | idle => exact idleTurn_work h
  | send => exact sendTurn_work h
  | wait => exact waitTurn_work h
  | header => exact headerTurn_work h
  | fixed => exact fixedTurn_work h
  | exSub => exact exSubTurn_work h
  | exBody => exact exBodyTurn_work h
  | exHand => exact exHandTurn_work h
  | imgDim => exact imgDimTurn_work h
  | imgStream => exact imgStreamTurn_work h

/-! ### Runs that end where the unit waits -/

/-- With no answer and no offer left, and no free move, the unit waits. -/
theorem waiting_of_no_work {s : State} (h : workIn s.phase s = 0) : Waiting s := by
  obtain ⟨spent, free⟩ := Nat.add_eq_zero_iff.mp h
  obtain ⟨answers, offers⟩ := Nat.add_eq_zero_iff.mp spent
  have answers := List.length_eq_zero_iff.mp answers
  have offers := List.length_eq_zero_iff.mp ((Nat.mul_eq_zero.mp offers).resolve_left nofun)
  rw [waitingExactly]
  cases hp : s.phase with
  | idle => exact offers
  | fixed | imgDim => exact answers
  | imgStream => exact .inr (.inl answers)
  | send | wait | header | exSub | exBody | exHand => exact absurd (hp ▸ free) nofun

/-- Fuel for all the work there is lets a run go on until the unit waits. -/
theorem runUnit_ends_waiting {fuel : Nat} {s t : State} (hf : workIn s.phase s ≤ fuel)
    (h : runUnit (fun _ => false) fuel s = .next t) : Waiting t := by
  induction fuel generalizing s with
  | zero =>
    cases h
    exact waiting_of_no_work (Nat.le_zero.mp hf)
  | succ n ih =>
    cases hu : unitTurn s with
    | waits =>
      rw [runUnit_waits hu] at h
      cases h
      exact hu
    | refuses r =>
      rw [runUnit, hu] at h
      cases h
    | moves u =>
      rw [runUnit_moves hu] at h
      exact ih (Nat.le_of_lt_succ ((turnOf_work hu).trans_le hf)) h

/-- Settles O46: the budget of a run is fuel for its work. -/
theorem runEndsWaiting : Obligations.RunEndsWaiting := fun s _ h => runUnit_ends_waiting (workIn_le_turnBudget s) h

/-! ### A command in flight and the offers behind it -/

/-- A turn of a command in flight keeps the command, and no offer is taken or dropped (42_executor.md R157). -/
theorem unitTurn_inFlight_frame {s t : State} (hb : s.phase ≠ .idle) (h : unitTurn s = .moves t) :
    t.offers = s.offers ∧ t.cmd = s.cmd := by
  obtain ⟨u, w, hc⟩ := turnOf_writes h
  obtain ⟨cmd, -, offers⟩ := w.command hb
  obtain ⟨_, _, _, _, rfl⟩ := hc.frame
  exact ⟨offers, cmd⟩

/-- A run that stops in IDLE keeps what the turns of a command in flight keep. -/
theorem runUnit_inFlight_keeps {P : State → Prop} (hP : ∀ s t, P s → s.phase ≠ .idle → unitTurn s = .moves t → P t)
    {fuel : Nat} {s t : State} (hs : P s) (h : runUnit (fun u => u.phase == .idle) fuel s = .next t) : P t := by
  induction fuel generalizing s with
  | zero =>
    cases h
    exact hs
  | succ n ih =>
    simp only [runUnit, beq_iff_eq] at h
    split_ifs at h with hp
    · cases h
      exact hs
    · cases hu : unitTurn s with
      | waits =>
        rw [hu] at h
        cases h
        exact hs
      | refuses r =>
        rw [hu] at h
        cases h
      | moves u =>
        rw [hu] at h
        exact ih (hP s u hs hp hu) h

/-- Settles O18: no turn of the run to IDLE is an accept, so each keeps the offers and the command. -/
theorem offerWaitsWhileBusy : Obligations.OfferWaitsWhileBusy := by
  refine ⟨fun s => beq_iff_eq, fun s t c h => ?_⟩
  have turn : ∀ u v : State, u.offers = s.offers ++ [c] ∧ u.cmd = s.cmd → u.phase ≠ .idle → unitTurn u = .moves v →
      v.offers = s.offers ++ [c] ∧ v.cmd = s.cmd := by
    rintro u v ⟨offers, cmd⟩ hb hv
    obtain ⟨offersKept, cmdKept⟩ := unitTurn_inFlight_frame hb hv
    exact ⟨offersKept.trans offers, cmdKept.trans cmd⟩
  obtain ⟨offers, cmd⟩ := runUnit_inFlight_keeps turn (s := offerCommand c s) ⟨rfl, rfl⟩ h
  exact ⟨offers, fun _ => cmd⟩

end Sys2Proof.Machine
end

section
/-!
PROOFS. The accept step (42_executor.md R158), the `SEND` step (R161), the `HEADER` step (R164, R167) and `finish`
(R160), each in full.
-/

namespace Sys2Proof.Machine

/-! ### The accept step -/

/-- Settles O14: the latch, and PHASE in SEND. -/
theorem acceptLatchesCommand : Obligations.AcceptLatchesCommand := fun s c _ _ _ ho hd hc hl =>
  ⟨latchBytes 28 s.freeIdx c.len.toNat c.payload.toList, latchBytes_take hl (by simpa using hl),
    congrArg (Turn.outcome · s) (idleTurn_admits ho hd hc hl)⟩

/-- A length above the register file leaves none of its bytes open. -/
theorem latchBytes_full {n draw len : Nat} {bytes : List Byte} (hn : n ≤ len) (hb : bytes.length = n) :
    (latchBytes n draw len bytes).toList = bytes := by
  refine List.ext_getElem (by simp [hb]) fun i hi held => ?_
  have below : i < len := hn.trans_lt' (hb ▸ held)
  simp [latchBytes, below, held]

/-- The accept step on a legal command, its configuration written (42_executor.md R158). -/
theorem idleTurn_accepts {s : State} {c : Command} {rest : List Command} {d : Decoder} (ho : s.offers = c :: rest)
    (hd : decoderOfCode c.dec = some d) (hc : configReady d c.imgreq s.cfg = true) :
    idleTurn s = .moves (admitLength (latchCommand d c { s with offers := rest })) := by
  simp only [idleTurn, ho, hd, hc, if_true]

/-- The accept step on a legal command that is too long (30_encoding.md R107; 42_executor.md R158). -/
theorem idleTurn_rejects {s : State} {c : Command} {rest : List Command} {d : Decoder} (ho : s.offers = c :: rest)
    (hd : decoderOfCode c.dec = some d) (hc : configReady d c.imgreq s.cfg = true) (hl : 28 < c.len.toNat) :
    idleTurn s = .moves (finish .payloadTooLarge (latchCommand d c { s with offers := rest })) :=
  (idleTurn_accepts ho hd hc).trans (congrArg Turn.moves (if_pos hl))

/-- Settles O15: `finish` on the latched command, which asks nothing of the other agents. -/
theorem acceptRejectsLongPayload : Obligations.AcceptRejectsLongPayload := by
  intro s c rest d _ ho hd hc hl
  have payload : (latchBytes 28 s.freeIdx c.len.toNat c.payload.toList).toList = c.payload.toList :=
    latchBytes_full hl.le (by simp)
  refine ⟨_, congrArg (Turn.outcome · s) (idleTurn_rejects ho hd hc hl), ?_⟩
  exact ⟨rfl, rfl, rfl, rfl, rfl, rfl, rfl, rfl, rfl, rfl, rfl, rfl, rfl, rfl, rfl, rfl, rfl, payload, rfl, rfl, rfl,
    rfl, rfl, rfl⟩

/-! ### The `SEND` step -/

/-- The frame of an admissible command is the codec's (40_codec.md R126). -/
theorem encodeFrame_sendFrame {p : Params} {c : CommandRegs} (hl : c.len.toNat ≤ 28) :
    encodeFrame p.sync c.opcode (c.payload.toList.take c.len.toNat) = some (sendFrame p c) := by
  have length : (c.payload.toList.take c.len.toNat).length = c.len.toNat := by simpa using hl
  have fits : ¬ c.len.toNat > maxPayload := Nat.not_lt.mpr hl
  rw [encodeFrame, length, if_neg fits, BitVec.ofNat_toNat, BitVec.setWidth_eq]
  rfl

/-- The frame byte by byte: the length's low byte first (30_encoding.md R90). -/
theorem sendFrame_eq (p : Params) (c : CommandRegs) :
    sendFrame p c = [p.sync, c.opcode, c.len.setWidth 8, (c.len >>> 8).setWidth 8] ++
      c.payload.toList.take c.len.toNat := by
  have low : (intIntoLsbMsb c.len).1 = c.len.setWidth 8 := BitVec.eq_of_toNat_eq <| by
    rw [intIntoLsbMsb_fst_toNat, BitVec.toNat_setWidth]
  rw [sendFrame, frameBytes, low]
  rfl

/-- Settles O19: the request answered, and the count it answers against the frame's length. -/
theorem sendStep : Obligations.SendStep := by
  intro s a rest _ ha hl frame c u
  have sent : sendFrame s.params s.cmd = frame := sendFrame_eq s.params s.cmd
  have written := tWrite_cons (f := frame) ha
  refine ⟨sent ▸ encodeFrame_sendFrame hl, ?_, ?_⟩
  · simp only [frame, List.length_append, List.length_take, Vector.length_toList, Nat.min_eq_left hl, List.length_cons,
      List.length_nil]
  · change (sendTurn s).outcome s = _
    simp only [sendTurn, sent, written]
    rw [apply_ite Host.Outcome.next, apply_ite (Turn.outcome · s)]
    rfl

/-! ### The `HEADER` step -/

theorem headerTurn_read {s u : State} {bs : List Byte} {h : ResponseHeader} (hu : tRead rspHdrLen s = some (bs, u))
    (hd : decodeHeader bs = some h) : headerTurn s = .moves (takeHeader h u) := by
  simp only [headerTurn, hu, hd]

theorem headerTurn_short {s u : State} {bs : List Byte} (hu : tRead rspHdrLen s = some (bs, u))
    (hl : bs.length ≠ 6) : headerTurn s = .moves (finish .shortHeader u) := by
  simp only [headerTurn, hu, decodeHeader_none.mpr hl]

/-- Settles O21: a short read, and the rule's tests on a full one. -/
theorem headerStep : Obligations.HeaderStep := by
  intro s a rest _ ha pool bs u
  have read : tRead rspHdrLen s = some (bs, u) := tRead_cons ha
  refine ⟨fun short => ?_, fun b0 b1 b2 b3 b4 b5 full => ?_⟩
  · exact congrArg (Turn.outcome · s) (headerTurn_short read short.ne)
  · have decoded : decodeHeader bs = some ⟨b0, b1, le32 b2 b3 b4 b5⟩ := by rw [full]; rfl
    exact (congrArg (Turn.outcome · s) (headerTurn_read read decoded)).trans (congrArg _ (takeHeader_eq ..))

/-! ### `finish` -/

theorem dataValidOf_iff {code : ResCode} {d : Decoder} : dataValidOf code d = true ↔ code = .ok ∧ d ≠ .none := by
  rw [dataValidOf, Bool.and_eq_true, beq_iff_eq, bne_iff_ne]

/-- Settles O28: the writes of `finish`, field by field. -/
theorem finishPostsResult : Obligations.FinishPostsResult := fun _ _ =>
  ⟨rfl, dataValidOf_iff, fun device => if_pos device, rfl, rfl, fun valid => if_pos valid, rfl, rfl, rfl, rfl, rfl, rfl,
    rfl, rfl, rfl, rfl, rfl, rfl, rfl, rfl, rfl, rfl, rfl, rfl, rfl⟩

end Sys2Proof.Machine
end

section
/-!
PROOFS. The drain's progress (42_executor.md R171; 44_execute_image.md R224): what an empty poll and what a chunk do to
its counters.
-/

namespace Sys2Proof.Machine

/-- What a turn of the drain leads to, from the counters `imgRem` and `retry`: the command ends, fewer bytes are
outstanding, or one more empty poll is counted within the ceiling. -/
def DrainAdvances (imgRem : Word32) (retry : BitVec 33) (t : State) : Prop :=
  t.phase = .idle ∧ t.res.valid = true ∧ t.res.code = .ok ∨
  t.phase = .imgStream ∧ t.data.imgRem.toNat < imgRem.toNat ∨
  t.phase = .imgStream ∧ t.data.imgRem = imgRem ∧ t.retry.toNat = retry.toNat + 1 ∧
    t.retry.toNat ≤ t.shadow.imgRetryCeil.toNat

/-- `RETRY` within a ceiling of 32 bits has room for one more in its 33. -/
theorem retry_succ {retry : BitVec 33} {ceil : Word32} (h : retry.toNat ≤ ceil.toNat) :
    (retry + 1).toNat = retry.toNat + 1 := by
  have bound := ceil.isLt
  rw [BitVec.toNat_add]
  exact Nat.mod_eq_of_lt (by change retry.toNat + 1 < 2 ^ 33; omega)

/-- An empty poll is counted, or is one too many and ends the command. -/
theorem emptyDrainPoll_advances {s : State} (h : s.retry.toNat ≤ s.shadow.imgRetryCeil.toNat) :
    DrainAdvances s.data.imgRem s.retry (emptyDrainPoll s) := by
  rcases emptyDrainPoll_cases s with ⟨-, he⟩ | ⟨within, he⟩ <;> rw [he]
  · exact .inl ⟨rfl, rfl, rfl⟩
  · exact .inr (.inr ⟨rfl, rfl, retry_succ h, within⟩)

/-- A chunk of at least one byte and no more than are outstanding lowers `IMG_REM`. -/
theorem chunkTaken_imgRem_lt {k : Nat} {s : State} (hk : 0 < k) (hle : k ≤ s.data.imgRem.toNat) :
    (chunkTaken k s).data.imgRem.toNat < s.data.imgRem.toNat := by
  have bound := s.data.imgRem.isLt
  have counted : (chunkTaken k s).data.imgRem = s.data.imgRem - BitVec.ofNat 32 k := by simp [chunkTaken]
  have small : (BitVec.ofNat 32 k).toNat = k := by
    rw [BitVec.toNat_ofNat]
    exact Nat.mod_eq_of_lt (by omega)
  rw [counted, BitVec.toNat_sub_of_le (by rw [BitVec.le_def, small]; exact hle), small]
  omega

/-- A chunk ends the command or leaves fewer bytes outstanding. -/
theorem takeChunk_advances {k : Nat} {s : State} {imgRem : Word32} (hrem : s.data.imgRem = imgRem) (hk : 0 < k)
    (hle : k ≤ imgRem.toNat) (retry : BitVec 33) : DrainAdvances imgRem retry (takeChunk k s) := by
  subst hrem
  rcases takeChunk_cases k s with ⟨-, he⟩ | ⟨-, he⟩ <;> rw [he]
  · exact .inl ⟨rfl, rfl, rfl⟩
  · exact .inr (.inl ⟨rfl, chunkTaken_imgRem_lt hk hle⟩)

/-- A read of the drain brings no more than is outstanding (44_execute_image.md R223). -/
theorem chunk_length_le {v w : State} {p : Params} {imgRem : Word32} {a : Nat} {bs : List Byte}
    (h : tRead (chunkSize p imgRem a) v = some (bs, w)) : bs.length ≤ imgRem.toNat :=
  (tRead_length_le h).trans ((min_le_right ..).trans (min_le_left ..))

/-- Settles O47: the turn's requests leave the drain's counters, and what they bring moves one of them. -/
theorem drainProgress : Obligations.DrainProgress := by
  intro s t inv hp h
  obtain ⟨-, ceiling, -⟩ := inv.streaming hp
  rw [unitTurn_eq_turnOf, hp] at h
  change DrainAdvances s.data.imgRem s.retry t
  obtain ⟨u, a, v, hu, hv, hcase⟩ := imgStreamTurn_moves h
  obtain ⟨y, rfl⟩ := resume_changes_yield_only hu
  obtain ⟨link, trace, rfl⟩ := tAvail_asked hv
  rcases hcase with ⟨-, rfl⟩ | ⟨-, bs, w, hw, hcase⟩
  · exact emptyDrainPoll_advances ceiling
  · have within := chunk_length_le hw
    obtain ⟨link, trace, rfl⟩ := tRead_asked hw
    rcases hcase with ⟨-, rfl⟩ | ⟨some_bytes, x, hx, rfl⟩
    · exact emptyDrainPoll_advances ceiling
    · obtain ⟨-, rfl⟩ := sinkWrite_some hx
      refine takeChunk_advances ?_ (List.length_pos_of_ne_nil some_bytes) within s.retry
      rfl

end Sys2Proof.Machine
end

section
/-!
PROOFS. A rejected header (42_executor.md R164 to R166; 60_exceptions.md R253): a command on a plain queue up to
`HEADER`, and what a header that fails a test leaves.
-/

namespace Sys2Proof.Machine

/-! ### A plain queue -/

/-- The first three answers of a plain queue: to the frame, to a poll, and to the read of a header. -/
theorem PlainQueue.three {s : State} (h : PlainQueue 3 s) :
    ∃ sent polled read rest, s.link.answers = sent :: polled :: read :: rest :=
  match s.link.answers, h.enough with
  | sent :: polled :: read :: rest, _ => ⟨sent, polled, read, rest, rfl⟩

/-- A command of the table at the start of `HEADER`: accepted, its frame taken whole, and its first poll answered with
all the queue holds. -/
def headerStart (k : CommandKind) (len : Word16) (payload : List Byte) (imgreq : Bool) (rest : List Answer)
    (s : State) : State :=
  let frame := frameBytes s.params.sync (opcodeOf s.params k) len payload
  { accepted k len payload imgreq s with
    tick := 0
    phase := .header
    link := ⟨s.link.inbound, s.link.outbound ++ frame, rest⟩
    trace := [.wrote frame frame.length, .polled s.link.inbound.length] }

/-- On a plain queue that is not empty the first poll finds it (41_poll.md R142). -/
theorem waitStart_polled {s : State} (hs : HostReady s) (hne : s.link.inbound ≠ []) {sent polled : Answer}
    {rest : List Answer} (hsent : sent.arrived = []) (hpolled : polled.arrived = [])
    (hcount : s.link.inbound.length ≤ polled.count) (k : CommandKind) (len : Word16) (payload : List Byte)
    (imgreq : Bool) :
    unitTurn (waitStart k len payload imgreq sent (polled :: rest) s) =
      .moves (headerStart k len payload imgreq rest s) := by
  have awake : (waitStart k len payload imgreq sent (polled :: rest) s).yld.req = false := hs.awake
  have turn := waitTurn_polled (resume_free awake) (tAvail_cons (a := polled) (rest := rest) rfl)
  refine turn.trans (congrArg Turn.moves ?_)
  have pool : s.link.inbound ++ sent.arrived ++ polled.arrived = s.link.inbound := by simp [hsent, hpolled]
  have found : 0 < s.link.inbound.length := List.length_pos_of_ne_nil hne
  simp only [waitStart, pool, Nat.min_eq_right hcount, found, if_true]
  rfl

/-- A ready host's command on a plain queue that is not empty runs from the start of `HEADER`. -/
theorem exec_command_reaches_header {s : State} (hs : HostReady s) {n : Nat} (hq : PlainQueue n s)
    (hne : s.link.inbound ≠ []) {len : Word16} (hl : len.toNat ≤ 28) {payload : List Byte}
    (hp : payload.length = len.toNat) {sent polled : Answer} {rest : List Answer}
    (ha : s.link.answers = sent :: polled :: rest) (k : CommandKind) (imgreq : Bool) :
    exec (k.instr len payload imgreq) s = runUnit (fun _ => false) (rest.length + 4)
      (headerStart k len payload (if k = .execute then imgreq else false) rest s) := by
  obtain ⟨hsent, -, hcount⟩ := hq.whole sent (by simp [ha])
  obtain ⟨hpolled, hall, -⟩ := hq.whole polled (by simp [ha])
  rw [exec_command_reaches_wait hs hl hp ha hcount]
  exact runUnit_moves (waitStart_polled hs hne hsent hpolled hall ..) (rest.length + 4)

/-- The state that the tests of the header meet, its six bytes read off a plain queue. -/
def headerRead (k : CommandKind) (len : Word16) (payload : List Byte) (imgreq : Bool) (header queue : List Byte)
    (rest : List Answer) (s : State) : State :=
  let u := headerStart k len payload imgreq rest s
  { u with link := ⟨queue, u.link.outbound, rest⟩, trace := u.trace ++ [.read rspHdrLen header] }

/-- The read of `HEADER` takes the queue's first six bytes and no more (42_executor.md R164). -/
theorem headerStart_read {s : State} {sync status : Byte} {length : Word32} {queue : List Byte}
    (hin : s.link.inbound = encodeHeader sync status length ++ queue) {read : Answer} {rest : List Answer}
    (hread : read.arrived = []) (hcount : rspHdrLen ≤ read.count) (k : CommandKind) (len : Word16)
    (payload : List Byte) (imgreq : Bool) :
    unitTurn (headerStart k len payload imgreq (read :: rest) s) = .moves (takeHeader ⟨sync, status, length⟩
      (headerRead k len payload imgreq (encodeHeader sync status length) queue rest s)) := by
  change headerTurn (headerStart k len payload imgreq (read :: rest) s) = _
  refine headerTurn_read (bs := encodeHeader sync status length) ?_ (decodeHeader_encodeHeader ..)
  refine (tRead_cons (n := rspHdrLen) (a := read) (rest := rest) rfl).trans ?_
  have pool : s.link.inbound ++ read.arrived = encodeHeader sync status length ++ queue := by
    rw [hread, List.append_nil, hin]
  simp only [headerStart, pool, Nat.min_eq_right hcount]
  rfl

/-! ### The rejectionCode -/

/-- What a header ends its command with that fails a test: the sync byte is looked at first (42_executor.md R164). -/
def rejectionCode (expected sync : Byte) : ResCode := if sync ≠ expected then .badSync else .device

/-- A header that fails a test is registered, and ends its command. -/
theorem takeHeader_rejected {h : ResponseHeader} {s : State} (hr : h.syncByte ≠ s.params.sync ∨ h.status ≠ 0) :
    takeHeader h s = finish (rejectionCode s.params.sync h.syncByte)
      { s with hdr := ⟨h.syncByte, h.status, h.payloadLength⟩ } := by
  unfold rejectionCode
  rcases takeHeader_cases h s with ⟨hsync, he⟩ | ⟨hsync, -, he⟩ | ⟨hsync, hstatus, -⟩
  · rw [he, if_pos hsync]
  · rw [he, if_neg (not_not.mpr hsync)]
  · exact absurd hr (by simp [hsync, hstatus])

theorem waiting_takeHeader_rejected {h : ResponseHeader} {s : State}
    (hr : h.syncByte ≠ s.params.sync ∨ h.status ≠ 0) (ho : s.offers = []) : Waiting (takeHeader h s) := by
  rw [takeHeader_rejected hr]
  exact waiting_finish (by exact ho) _

theorem rejectionCode_ne_ok (expected sync : Byte) : rejectionCode expected sync ≠ .ok := by
  unfold rejectionCode
  split <;> nofun

theorem finish_dataValid_of_ne_ok {code : ResCode} (hc : code ≠ .ok) (s : State) :
    (finish code s).res.dataValid = false :=
  Bool.eq_false_iff.mpr fun valid => hc (dataValidOf_iff.mp valid).1

/-- "Absence signals failure" (43_decoders.md R205). -/
theorem typedResult_of_no_data {s : State} (h : s.res.dataValid = false) : s.typedResult = none := by
  simp [State.typedResult, h]

/-- Settles O43: the run to the header's read, the test it fails, and IDLE with nothing on the port. -/
theorem rejectedHeaderEndsCommand : Obligations.RejectedHeaderEndsCommand := by
  intro s k len payload imgreq sync status length queue hs hq hl hp hr hin
  obtain ⟨sent, polled, read, rest, ha⟩ := hq.three
  obtain ⟨hread, -, hcount⟩ := hq.whole read (by simp [ha])
  have nonempty : s.link.inbound ≠ [] := by rw [hin]; nofun
  rw [exec_command_reaches_header hs hq nonempty hl hp ha]
  generalize (if k = .execute then imgreq else false) = asked
  have turn := headerStart_read hin (rest := rest) hread (hcount.trans' (by decide)) k len payload asked
  have ended := (runUnit_moves turn (rest.length + 4)).trans
    (runUnit_waits (waiting_takeHeader_rejected hr (by exact hs.free)) (fun _ => false) (rest.length + 4))
  rw [takeHeader_rejected hr] at ended
  have noData := finish_dataValid_of_ne_ok (rejectionCode_ne_ok s.params.sync sync)
  refine ⟨_, ended, rfl, rfl, rfl, ?_, noData _, typedResult_of_no_data (noData _), rfl, ?_, rfl, rfl,
    ⟨rfl, rfl, rfl, rfl, rfl⟩⟩
  · rintro rfl
    exact if_pos (if_neg (not_not.mpr rfl))
  · rw [ha]
    rfl

end Sys2Proof.Machine
end

section
/-!
PROOFS. A turn does not look at the phase it runs in: each step writes `PHASE` and none reads it (10_state.md R40). The
big-step function of 42_executor.md R173 is written without phases, so this is what lets the two be compared.
-/

namespace Sys2Proof.Machine

/-! ### The requests and the shared operations -/

/-- `s` with another phase. -/
def State.enter (q : Phase) (s : State) : State := { s with phase := q }

@[simp] theorem enter_cmd (q : Phase) (s : State) : (s.enter q).cmd = s.cmd := rfl
@[simp] theorem enter_data (q : Phase) (s : State) : (s.enter q).data = s.data := rfl
@[simp] theorem enter_params (q : Phase) (s : State) : (s.enter q).params = s.params := rfl

theorem takeAnswer_enter (q : Phase) (s : State) :
    takeAnswer (s.enter q) = (takeAnswer s).map (Prod.map id (State.enter q)) := by
  unfold takeAnswer State.enter
  cases s.link.answers <;> rfl

theorem tWrite_enter (q : Phase) (frame : List Byte) (s : State) :
    tWrite frame (s.enter q) = (tWrite frame s).map (Prod.map id (State.enter q)) := by
  simp only [tWrite, takeAnswer_enter]
  cases takeAnswer s <;> rfl

theorem tAvail_enter (q : Phase) (s : State) :
    tAvail (s.enter q) = (tAvail s).map (Prod.map id (State.enter q)) := by
  simp only [tAvail, takeAnswer_enter]
  cases takeAnswer s <;> rfl

theorem tRead_enter (q : Phase) (n : Nat) (s : State) :
    tRead n (s.enter q) = (tRead n s).map (Prod.map id (State.enter q)) := by
  simp only [tRead, takeAnswer_enter]
  cases takeAnswer s <;> rfl

theorem sinkWrite_enter (q : Phase) (bs : List Byte) (s : State) :
    sinkWrite bs (s.enter q) = (sinkWrite bs s).map (State.enter q) := by
  rw [sinkWrite, sinkWrite, apply_ite (Option.map (State.enter q))]
  rfl

theorem resume_enter (q : Phase) (s : State) : resume (s.enter q) = (resume s).map (State.enter q) := by
  rw [resume, resume, apply_ite (Option.map (State.enter q))]
  refine if_congr Iff.rfl ?_ rfl
  unfold State.enter
  cases s.yld.acks <;> rfl

theorem consume_enter (q : Phase) (k : Nat) (s : State) : consume k (s.enter q) = (consume k s).enter q := by
  rw [consume, consume, apply_ite (State.enter q)]
  rfl

theorem dimensionsTaken_enter (q : Phase) (w h : Word16) (s : State) :
    dimensionsTaken w h (s.enter q) = (dimensionsTaken w h s).enter q :=
  congrArg (fun u : State => { u with res.imgPresent := true, data.imgRem := mul16 w h })
    (consume_enter q imgDimLen { s with data.imgW := w, data.imgH := h })

theorem chunkTaken_enter (q : Phase) (k : Nat) (s : State) : chunkTaken k (s.enter q) = (chunkTaken k s).enter q :=
  congrArg (fun u : State => { u with retry := if s.params.imgRetryResetOnData then 0 else s.retry })
    (consume_enter q k { s with data.imgRem := s.data.imgRem - BitVec.ofNat 32 k })

/-! ### The turns -/

theorem idleTurn_enter (q : Phase) (s : State) : idleTurn (s.enter q) = idleTurn s := rfl

theorem sendTurn_enter (q : Phase) (s : State) : sendTurn (s.enter q) = sendTurn s := by
  simp only [sendTurn, enter_params, enter_cmd, tWrite_enter]
  cases tWrite (sendFrame s.params s.cmd) s <;> rfl

theorem waitTurn_enter (q : Phase) (s : State) : waitTurn (s.enter q) = waitTurn s := by
  simp only [waitTurn, resume_enter]
  cases resume s with
  | none => rfl
  | some u =>
    simp only [Option.map_some, tAvail_enter]
    cases tAvail u <;> rfl

theorem headerTurn_enter (q : Phase) (s : State) : headerTurn (s.enter q) = headerTurn s := by
  simp only [headerTurn, tRead_enter]
  cases tRead rspHdrLen s <;> rfl

theorem fixedTurn_enter (q : Phase) (s : State) : fixedTurn (s.enter q) = fixedTurn s := by
  simp only [fixedTurn, enter_cmd, tRead_enter]
  cases tRead (shapeLen s.cmd.dec) s <;> rfl

theorem exSubTurn_enter (q : Phase) (s : State) : exSubTurn (s.enter q) = exSubTurn s := by
  simp only [exSubTurn, tRead_enter]
  cases tRead execSubhdrLen s with
  | none => rfl
  | some r =>
    simp only [Option.map_some, Prod.map, id_eq]
    split
    · next body hand face _ _ =>
      have counted := consume_enter q execSubhdrLen
        { r.2 with data.bodyCount := body, data.handCount := hand, data.faceCount := face }
      exact (congrArg (fun u : State => Turn.moves { u with items := body, phase := .exBody }) counted :)
    · rfl

/-- A metadata block of `size` bytes, in the phase `p` of its kind (44_execute_image.md R218, R219). -/
def blockTurn (p : Phase) (size : Nat) (s : State) : Turn :=
  match tRead size s with
  | none => .waits
  | some (bs, u) =>
    if bs.length < size then .moves (finish .shortRead u)
    else .moves { consume size u with items := u.items - 1, phase := p }

theorem blockTurn_enter (q p : Phase) (size : Nat) (s : State) :
    blockTurn p size (s.enter q) = blockTurn p size s := by
  simp only [blockTurn, tRead_enter]
  cases tRead size s with
  | none => rfl
  | some r =>
    refine if_congr Iff.rfl rfl ?_
    have counted := consume_enter q size r.2
    exact (congrArg (fun u : State => Turn.moves { u with items := r.2.items - 1, phase := p }) counted :)

/-- The `EX_BODY` step (44_execute_image.md R218), told by its block. -/
theorem exBodyTurn_eq (s : State) :
    exBodyTurn s =
      if s.items = 0 ∨ s.params.bodyItemBytes = 0 then .moves { s with items := s.data.handCount, phase := .exHand }
      else blockTurn .exBody s.params.bodyItemBytes s := by
  refine if_congr Iff.rfl rfl ?_
  unfold blockTurn
  cases h : tRead s.params.bodyItemBytes s with
  | none => rfl
  | some r =>
    obtain ⟨bs, u⟩ := r
    obtain ⟨link, trace, rfl⟩ := tRead_asked h
    rfl

/-- The `EX_HAND` step (R219), told by its block. -/
theorem exHandTurn_eq (s : State) :
    exHandTurn s =
      if s.items = 0 ∨ s.params.handItemBytes = 0 then
        if s.cmd.imgreq then .moves { s with phase := .imgDim } else .moves (finish .ok s)
      else blockTurn .exHand s.params.handItemBytes s := by
  refine if_congr Iff.rfl rfl ?_
  unfold blockTurn
  cases h : tRead s.params.handItemBytes s with
  | none => rfl
  | some r =>
    obtain ⟨bs, u⟩ := r
    obtain ⟨link, trace, rfl⟩ := tRead_asked h
    rfl

theorem exBodyTurn_enter (q : Phase) (s : State) : exBodyTurn (s.enter q) = exBodyTurn s := by
  rw [exBodyTurn_eq, exBodyTurn_eq, enter_params, blockTurn_enter]
  rfl

theorem exHandTurn_enter (q : Phase) (s : State) : exHandTurn (s.enter q) = exHandTurn s := by
  rw [exHandTurn_eq, exHandTurn_eq, enter_params, blockTurn_enter]
  rfl

theorem takeDimensions_enter (q : Phase) (w h : Word16) (s : State) :
    takeDimensions w h (s.enter q) = takeDimensions w h s := by
  rw [takeDimensions, takeDimensions, dimensionsTaken_enter]
  rfl

theorem imgDimTurn_enter (q : Phase) (s : State) : imgDimTurn (s.enter q) = imgDimTurn s := by
  simp only [imgDimTurn, tRead_enter]
  cases tRead imgDimLen s with
  | none => rfl
  | some r =>
    simp only [Option.map_some, Prod.map, id_eq, takeDimensions_enter]
    rfl

theorem takeChunk_enter (q : Phase) (k : Nat) (s : State) : takeChunk k (s.enter q) = takeChunk k s := by
  rw [takeChunk, takeChunk, chunkTaken_enter]
  rfl

theorem imgStreamTurn_enter (q : Phase) (s : State) : imgStreamTurn (s.enter q) = imgStreamTurn s := by
  simp only [imgStreamTurn, resume_enter]
  cases resume s with
  | none => rfl
  | some u =>
    simp only [Option.map_some, tAvail_enter]
    cases tAvail u with
    | none => rfl
    | some r =>
      obtain ⟨a, v⟩ := r
      refine if_congr Iff.rfl ?_ rfl
      simp only [id_eq, enter_params, enter_data, tRead_enter]
      cases tRead (chunkSize v.params v.data.imgRem a) v with
      | none => rfl
      | some r =>
        refine if_congr Iff.rfl ?_ rfl
        simp only [id_eq, sinkWrite_enter]
        cases sinkWrite r.1 r.2 with
        | none => rfl
        | some x => exact congrArg Turn.moves (takeChunk_enter q _ x)

/-- The step of phase `p` does the same from any phase. -/
theorem turnOf_enter (p q : Phase) (s : State) : turnOf p (s.enter q) = turnOf p s := by
  cases p with
  | idle => exact idleTurn_enter q s
  | send => exact sendTurn_enter q s
  | wait => exact waitTurn_enter q s
  | header => exact headerTurn_enter q s
  | fixed => exact fixedTurn_enter q s
  | exSub => exact exSubTurn_enter q s
  | exBody => exact exBodyTurn_enter q s
  | exHand => exact exHandTurn_enter q s
  | imgDim => exact imgDimTurn_enter q s
  | imgStream => exact imgStreamTurn_enter q s

end Sys2Proof.Machine
end

section
/-!
PROOFS. The big-step function of 42_executor.md R173: the phase machine follows each of its parts, and a command's run
ends where the function does.
-/

namespace Sys2Proof.Machine

/-! ### Following a big-step program -/

/-- The phase machine, from the registers of `s` in phase `p` of a command, follows a big-step program that gives `o`:
its turns end the command in the state given, or come to wait where none is. -/
inductive Follows : Phase → State → Option State → Prop where
  | ends {p : Phase} {s t : State} (busy : p ≠ .idle) (turn : turnOf p s = .moves t) (idle : t.phase = .idle) :
      Follows p s (some t)
  | waits {p : Phase} {s : State} (busy : p ≠ .idle) (turn : turnOf p s = .waits) : Follows p s none
  | goesOn {p q : Phase} {s u : State} {o : Option State} (busy : p ≠ .idle) (turn : turnOf p s = .moves (u.enter q))
      (next : Follows q u o) : Follows p s o

/-- What a run comes to where a big-step program gives `o`: the state given, or a command in flight that waits. -/
def RunsTo (o : Option State) (r : Host.Outcome State Fault Refusal) : Prop :=
  (∀ t, o = some t → r = .next t) ∧ (o = none → ∃ t, r = .next t ∧ t.phase ≠ .idle ∧ Waiting t)

theorem unitTurn_enter (p : Phase) (s : State) : unitTurn (s.enter p) = turnOf p s := turnOf_enter p p s

/-- A turn of a command in flight within the fuel of a run: it is taken, and leaves fuel for the work left. -/
theorem runUnit_turn {p : Phase} {s t : State} (turn : turnOf p s = .moves t) {fuel : Nat} (hf : workIn p s ≤ fuel) :
    ∃ n, workIn t.phase t ≤ n ∧ runUnit (fun _ => false) fuel (s.enter p) = runUnit (fun _ => false) n t := by
  have less := (turnOf_work turn).trans_le hf
  obtain ⟨n, rfl⟩ := Nat.exists_eq_add_one_of_ne_zero (Nat.ne_zero_of_lt less)
  exact ⟨n, Nat.le_of_lt_succ less, runUnit_moves ((unitTurn_enter p s).trans turn) n⟩

theorem turnOf_offers {p : Phase} {s t : State} (busy : p ≠ .idle) (turn : turnOf p s = .moves t) :
    t.offers = s.offers :=
  (unitTurn_inFlight_frame (s := s.enter p) busy ((unitTurn_enter p s).trans turn)).1

/-- With fuel for its work and nothing on the port, a run comes to what the program gives. -/
theorem Follows.run {p : Phase} {s : State} {o : Option State} (h : Follows p s o) (free : s.offers = []) {fuel : Nat}
    (hf : workIn p s ≤ fuel) : RunsTo o (runUnit (fun _ => false) fuel (s.enter p)) := by
  induction h generalizing fuel with
  | @ends p s t busy turn idle =>
    obtain ⟨n, -, run⟩ := runUnit_turn turn hf
    have waiting : Waiting t := by
      rw [Waiting, unitTurn_eq_turnOf, idle]
      exact idleTurn_waits.mpr ((turnOf_offers busy turn).trans free)
    refine ⟨fun u hu => ?_, nofun⟩
    cases hu
    rw [run, runUnit_waits waiting]
  | @waits p s busy turn =>
    have waiting : Waiting (s.enter p) := (unitTurn_enter p s).trans turn
    exact ⟨fun _ given => absurd given nofun, fun _ => ⟨s.enter p, runUnit_waits waiting _ fuel, busy, waiting⟩⟩
  | @goesOn p q s u o busy turn next ih =>
    obtain ⟨n, hn, run⟩ := runUnit_turn turn hf
    have offers : u.offers = [] := (turnOf_offers busy turn).trans free
    rw [run]
    exact ih offers hn

/-! ### The loops

Each turn of a loop takes an answer of the transport, so a loop with more fuel than there are answers ends or lacks an
answer before its fuel does.
-/

theorem resume_answers {s u : State} (h : resume s = some u) : u.link.answers = s.link.answers := by
  obtain ⟨y, rfl⟩ := resume_changes_yield_only h
  rfl

/-- The poll loop (41_poll.md R142), then what the program does with its outcome. -/
theorem bigPoll_follows {next : Bool × State → Option State} (ready : ∀ u, Follows .header u (next (true, u)))
    (spent : ∀ u, next (false, u) = some (finish .timeout u)) {n : Nat} {s : State}
    (hn : s.link.answers.length < n) : Follows .wait s ((bigPoll n s).bind next) := by
  induction n generalizing s with
  | zero => exact absurd hn (Nat.not_lt_zero _)
  | succ n ih =>
    have turn : turnOf .wait s = waitTurn s := rfl
    cases hu : resume s with
    | none =>
      simp only [bigPoll, hu]
      exact .waits nofun (by simp only [turn, waitTurn, hu])
    | some u =>
      cases hv : tAvail u with
      | none =>
        simp only [bigPoll, hu, Option.bind_eq_bind, Option.bind_some, hv]
        exact .waits nofun (by simp only [turn, waitTurn, hu, hv])
      | some r =>
        obtain ⟨a, v⟩ := r
        have left := tAvail_answers hv
        rw [resume_answers hu] at left
        have polled := turn.trans (waitTurn_polled hu hv)
        by_cases ha : 0 < a
        · rw [if_pos ha] at polled
          simp only [bigPoll, hu, hv, Option.bind_eq_bind, Option.bind_some, gt_iff_lt, ha, if_true]
          exact .goesOn nofun polled (ready v)
        · rw [if_neg ha] at polled
          simp only [bigPoll, hu, hv, Option.bind_eq_bind, Option.bind_some, gt_iff_lt, ha, if_false]
          cases hb : pollBudgetSpent (v.tick + 1) v.shadow.maxWaitPolls with
          | true =>
            simp only [emptyWaitPoll, hb, if_true] at polled ⊢
            rw [Option.bind_some, spent]
            exact .ends nofun polled rfl
          | false =>
            simp only [emptyWaitPoll, hb] at polled ⊢
            exact .goesOn nofun polled (ih (s := yieldFor _ _) (left.trans_le (Nat.le_of_lt_succ hn)))

/-- The block loop of one kind (44_execute_image.md R218, R219), run in that kind's phase `p`, then what the program
does with its outcome. -/
theorem bigBlocks_follows {p : Phase} (busy : p ≠ .idle) {size : Nat} {params : Params}
    {next : Bool × State → Option State}
    (block : ∀ u : State, u.params = params → ¬(u.items = 0 ∨ size = 0) → turnOf p u = blockTurn p size u)
    (done : ∀ u : State, u.params = params → u.items = 0 ∨ size = 0 → Follows p u (next (true, u)))
    (short : ∀ u, next (false, u) = some (finish .shortRead u)) {n : Nat} {s : State} (hs : s.params = params)
    (hn : s.link.answers.length < n) : Follows p s ((bigBlocks size n s).bind next) := by
  induction n generalizing s with
  | zero => exact absurd hn (Nat.not_lt_zero _)
  | succ n ih =>
    by_cases hz : s.items = 0 ∨ size = 0
    · simp only [bigBlocks, hz, if_true]
      exact done s hs hz
    · have turn := block s hs hz
      simp only [bigBlocks, hz, if_false]
      cases hr : tRead size s with
      | none => exact .waits busy (turn.trans (by simp only [blockTurn, hr]))
      | some r =>
        obtain ⟨bs, u⟩ := r
        have left := tRead_answers hr
        simp only [blockTurn, hr] at turn
        simp only [Option.bind_eq_bind, Option.bind_some]
        by_cases hb : bs.length < size
        · rw [if_pos hb] at turn ⊢
          rw [Option.bind_some, short]
          exact .ends busy turn rfl
        · rw [if_neg hb] at turn ⊢
          have kept : (consume size u).params = params := by
            obtain ⟨link, trace, rfl⟩ := tRead_asked hr
            rw [consume_params, ← hs]
          exact .goesOn (q := p) (u := { consume size u with items := u.items - 1 }) busy turn (ih kept
            (by simpa using left.trans_le (Nat.le_of_lt_succ hn)))

theorem chunkTaken_answers (k : Nat) (s : State) : (chunkTaken k s).link.answers = s.link.answers := by
  simp [chunkTaken]

/-- A poll of the drain that brings nothing, in the program and in the turn (44_execute_image.md R224). -/
theorem emptyDrainPoll_follows {n : Nat} {s v : State} (turn : turnOf .imgStream s = .moves (emptyDrainPoll v))
    (next : Follows .imgStream (yieldFor v.shadow.pollIntervalMs { v with retry := v.retry + 1 })
      (bigStream n (yieldFor v.shadow.pollIntervalMs { v with retry := v.retry + 1 }))) :
    Follows .imgStream s
      (if retryCeilingExceeded (v.retry + 1) v.shadow.imgRetryCeil then
        some (finish .ok { v with retry := v.retry + 1, res.imgIncomplete := true })
      else bigStream n (yieldFor v.shadow.pollIntervalMs { v with retry := v.retry + 1 })) := by
  cases hc : retryCeilingExceeded (v.retry + 1) v.shadow.imgRetryCeil with
  | true =>
    simp only [emptyDrainPoll, hc, if_true] at turn
    exact .ends nofun turn rfl
  | false =>
    simp only [emptyDrainPoll, hc] at turn
    exact .goesOn nofun turn next

/-- A chunk of the drain, in the program and in the turn (44_execute_image.md R224). -/
theorem takeChunk_follows {n k : Nat} {s x : State} (turn : turnOf .imgStream s = .moves (takeChunk k x))
    (next : Follows .imgStream (chunkTaken k x) (bigStream n (chunkTaken k x))) :
    Follows .imgStream s
      (if (chunkTaken k x).data.imgRem = 0 then some (finish .ok (chunkTaken k x))
      else bigStream n (chunkTaken k x)) := by
  rcases takeChunk_cases k x with ⟨hz, he⟩ | ⟨hz, he⟩ <;> rw [he] at turn
  · rw [if_pos hz]
    exact .ends nofun turn rfl
  · rw [if_neg hz]
    exact .goesOn nofun turn next

/-- The stream of the drain (44_execute_image.md R224). -/
theorem bigStream_follows {n : Nat} {s : State} (hn : s.link.answers.length < n) :
    Follows .imgStream s (bigStream n s) := by
  induction n generalizing s with
  | zero => exact absurd hn (Nat.not_lt_zero _)
  | succ n ih =>
    have turn : turnOf .imgStream s = imgStreamTurn s := rfl
    rw [imgStreamTurn] at turn
    rw [bigStream]
    cases hu : resume s with
    | none =>
      rw [hu] at turn
      exact .waits nofun turn
    | some u =>
      simp only [hu] at turn
      simp only [Option.bind_eq_bind, Option.bind_some]
      cases hv : tAvail u with
      | none =>
        simp only [hv] at turn
        exact .waits nofun turn
      | some r =>
        obtain ⟨a, v⟩ := r
        have left := tAvail_answers hv
        rw [resume_answers hu] at left
        have polled : v.link.answers.length < n := left.trans_le (Nat.le_of_lt_succ hn)
        simp only [hv] at turn
        simp only [Option.bind_some]
        by_cases ha : 0 < a
        · simp only [gt_iff_lt, ha, if_true] at turn ⊢
          cases hw : tRead (chunkSize v.params v.data.imgRem a) v with
          | none =>
            simp only [hw] at turn
            exact .waits nofun turn
          | some r =>
            obtain ⟨bs, w⟩ := r
            have read : w.link.answers.length < n := (tRead_answers hw).trans polled
            simp only [hw] at turn
            simp only [Option.bind_some]
            by_cases hb : 0 < bs.length
            · simp only [hb, if_true] at turn ⊢
              cases hx : sinkWrite bs w with
              | none =>
                simp only [hx] at turn
                exact .waits nofun turn
              | some x =>
                obtain ⟨-, rfl⟩ := sinkWrite_some hx
                simp only [hx] at turn
                simp only [Option.bind_some]
                exact takeChunk_follows turn (ih (by rwa [chunkTaken_answers]))
            · simp only [hb, if_false] at turn ⊢
              exact emptyDrainPoll_follows turn (ih read)
        · simp only [gt_iff_lt, ha, if_false] at turn ⊢
          exact emptyDrainPoll_follows turn (ih polled)

/-! ### The decoders -/

/-- A read of four bytes that is not four bytes, as the steps tell it. -/
def NotFour (bs : List Byte) : Prop := ∀ b0 b1 b2 b3, bs ≠ [b0, b1, b2, b3]

theorem four_or_notFour (bs : List Byte) : (∃ b0 b1 b2 b3, bs = [b0, b1, b2, b3]) ∨ NotFour bs := by
  refine (em _).imp_right fun h b0 b1 b2 b3 hb => h ⟨b0, b1, b2, b3, hb⟩

theorem imgDimTurn_four {s u : State} {w0 w1 h0 h1 : Byte} (h : tRead imgDimLen s = some ([w0, w1, h0, h1], u)) :
    imgDimTurn s = .moves (takeDimensions (b2i w0 w1) (b2i h0 h1) u) := by
  simp only [imgDimTurn, h]

theorem imgDimTurn_short {s u : State} {bs : List Byte} (h : tRead imgDimLen s = some (bs, u)) (hb : NotFour bs) :
    imgDimTurn s = .moves (finish .shortRead u) := by
  simp only [imgDimTurn, h]
  split
  · exact (hb _ _ _ _ rfl).elim
  · rfl

theorem exSubTurn_four {s u : State} {body hand face r : Byte}
    (h : tRead execSubhdrLen s = some ([body, hand, face, r], u)) :
    exSubTurn s = .moves
      { consume execSubhdrLen { u with data.bodyCount := body, data.handCount := hand, data.faceCount := face } with
        items := body, phase := .exBody } := by
  simp only [exSubTurn, h]

theorem exSubTurn_short {s u : State} {bs : List Byte} (h : tRead execSubhdrLen s = some (bs, u)) (hb : NotFour bs) :
    exSubTurn s = .moves (finish .shortRead u) := by
  simp only [exSubTurn, h]
  split
  · exact (hb _ _ _ _ rfl).elim
  · rfl

theorem dimensionsTaken_imgRem (w h : Word16) (s : State) : (dimensionsTaken w h s).data.imgRem = mul16 w h := rfl

/-- The program of the image after its dimensions (44_execute_image.md R222, R224). -/
def bigDrain (s : State) : Option State :=
  if s.data.imgRem = 0 then some (finish .ok s) else bigStream (s.link.answers.length + 1) { s with retry := 0 }

theorem bigImage_four {s u : State} {w0 w1 h0 h1 : Byte} (h : tRead imgDimLen s = some ([w0, w1, h0, h1], u)) :
    bigImage s = bigDrain (dimensionsTaken (b2i w0 w1) (b2i h0 h1) u) := by
  simp only [bigImage, h]
  rfl

theorem bigImage_short {s u : State} {bs : List Byte} (h : tRead imgDimLen s = some (bs, u)) (hb : NotFour bs) :
    bigImage s = some (finish .shortRead u) := by
  simp only [bigImage, h, Option.bind_eq_bind, Option.bind_some]
  split
  · exact (hb _ _ _ _ rfl).elim
  · rfl

/-- The image (44_execute_image.md R222). -/
theorem bigImage_follows (s : State) : Follows .imgDim s (bigImage s) := by
  cases h : tRead imgDimLen s with
  | none =>
    rw [bigImage, h]
    exact .waits nofun (imgDimTurn_waits.mpr (tRead_none.mp h))
  | some r =>
    obtain ⟨bs, u⟩ := r
    rcases four_or_notFour bs with ⟨w0, w1, h0, h1, rfl⟩ | short
    · have turn : turnOf .imgDim s = .moves (takeDimensions (b2i w0 w1) (b2i h0 h1) u) := imgDimTurn_four h
      rw [bigImage_four h, bigDrain, dimensionsTaken_imgRem]
      rcases takeDimensions_cases (b2i w0 w1) (b2i h0 h1) u with ⟨hz, he⟩ | ⟨hz, he⟩ <;> rw [he] at turn
      · rw [if_pos hz]
        exact .ends nofun turn rfl
      · rw [if_neg hz]
        exact .goesOn (q := .imgStream) (u := { dimensionsTaken (b2i w0 w1) (b2i h0 h1) u with retry := 0 }) nofun turn
          (bigStream_follows (Nat.lt_succ_self _))
    · rw [bigImage_short h short]
      exact .ends nofun (imgDimTurn_short h short) rfl

/-- The program of the execution after its body blocks (44_execute_image.md R219, R220). -/
def bigHands (hands : Bool × State) : Option State :=
  if !hands.1 then some (finish .shortRead hands.2)
  else if hands.2.cmd.imgreq then bigImage hands.2
  else some (finish .ok hands.2)

/-- The program of the execution after its subheader (R218, R219). -/
def bigBodies (bodies : Bool × State) : Option State :=
  if !bodies.1 then some (finish .shortRead bodies.2)
  else (bigBlocks bodies.2.params.handItemBytes (bodies.2.link.answers.length + 1)
    { bodies.2 with items := bodies.2.data.handCount }).bind bigHands

theorem bigExec_four {s u : State} {body hand face r : Byte}
    (h : tRead execSubhdrLen s = some ([body, hand, face, r], u)) :
    let v := consume execSubhdrLen
      { u with data.bodyCount := body, data.handCount := hand, data.faceCount := face }
    bigExec s =
      (bigBlocks v.params.bodyItemBytes (v.link.answers.length + 1) { v with items := body }).bind bigBodies := by
  simp only [bigExec, h]
  rfl

theorem bigExec_short {s u : State} {bs : List Byte} (h : tRead execSubhdrLen s = some (bs, u)) (hb : NotFour bs) :
    bigExec s = some (finish .shortRead u) := by
  simp only [bigExec, h, Option.bind_eq_bind, Option.bind_some]
  split
  · exact (hb _ _ _ _ rfl).elim
  · rfl

theorem bigHands_follows {s : State} (hz : s.items = 0 ∨ s.params.handItemBytes = 0) :
    Follows .exHand s (bigHands (true, s)) := by
  have turn : turnOf .exHand s = exHandTurn s := rfl
  rw [exHandTurn_eq, if_pos hz] at turn
  cases hi : s.cmd.imgreq with
  | true =>
    simp only [hi, if_true] at turn
    simp only [bigHands, hi]
    exact .goesOn nofun turn (bigImage_follows s)
  | false =>
    simp only [hi] at turn
    simp only [bigHands, hi]
    exact .ends nofun turn rfl

theorem bigBodies_follows {s : State} (hz : s.items = 0 ∨ s.params.bodyItemBytes = 0) :
    Follows .exBody s (bigBodies (true, s)) := by
  have turn : turnOf .exBody s = exBodyTurn s := rfl
  rw [exBodyTurn_eq, if_pos hz] at turn
  refine .goesOn (q := .exHand) (u := { s with items := s.data.handCount }) nofun turn ?_
  refine bigBlocks_follows (p := .exHand) (params := s.params) (size := s.params.handItemBytes) (next := bigHands)
    nofun ?block ?done (fun _ => rfl) ?params (Nat.lt_succ_self _)
  case block =>
    intro u hu hn
    rw [← hu] at hn ⊢
    exact (exHandTurn_eq u).trans (if_neg hn)
  case done => exact fun u hu hz => bigHands_follows (hu ▸ hz)
  case params => rfl

/-- The execution-result decoder (44_execute_image.md R215 to R222). -/
theorem bigExec_follows (s : State) : Follows .exSub s (bigExec s) := by
  cases h : tRead execSubhdrLen s with
  | none =>
    rw [bigExec, h]
    exact .waits nofun (exSubTurn_waits.mpr (tRead_none.mp h))
  | some r =>
    obtain ⟨bs, u⟩ := r
    rcases four_or_notFour bs with ⟨body, hand, face, r, rfl⟩ | short
    · rw [bigExec_four h]
      generalize hv : consume execSubhdrLen
        { u with data.bodyCount := body, data.handCount := hand, data.faceCount := face } = v
      have turn : turnOf .exSub s = .moves { v with items := body, phase := .exBody } := hv ▸ exSubTurn_four h
      refine .goesOn (q := .exBody) (u := { v with items := body }) nofun turn ?_
      refine bigBlocks_follows (p := .exBody) (params := v.params) (size := v.params.bodyItemBytes)
        (next := bigBodies) nofun ?block ?done (fun _ => rfl) ?params (Nat.lt_succ_self _)
      case block =>
        intro u hu hn
        rw [← hu] at hn ⊢
        exact (exBodyTurn_eq u).trans (if_neg hn)
      case done => exact fun u hu hz => bigBodies_follows (hu ▸ hz)
      case params => rfl
    · rw [bigExec_short h short]
      exact .ends nofun (exSubTurn_short h short) rfl

/-- The program of a fixed shape (43_decoders.md R187). -/
def bigFixed (s : State) : Option State :=
  (tRead (shapeLen s.cmd.dec) s).bind fun r =>
    if r.1.length < shapeLen s.cmd.dec then some (finish .shortRead r.2)
    else some (finish .ok { r.2 with
      data.rb := latchBytes 19 r.2.freeIdx (shapeLen s.cmd.dec) r.1, freeIdx := r.2.freeIdx + 1 })

theorem bigFixed_follows (s : State) : Follows .fixed s (bigFixed s) := by
  have turn : turnOf .fixed s = fixedTurn s := rfl
  rw [fixedTurn] at turn
  rw [bigFixed]
  cases h : tRead (shapeLen s.cmd.dec) s with
  | none =>
    rw [h] at turn
    exact .waits nofun turn
  | some r =>
    simp only [h] at turn
    rw [Option.bind_some]
    by_cases hb : r.1.length < shapeLen s.cmd.dec
    · rw [if_pos hb] at turn ⊢
      exact .ends nofun turn rfl
    · rw [if_neg hb] at turn ⊢
      exact .ends nofun turn rfl

/-- The decoder of `C_DEC`, told as dispatch chooses it (42_executor.md R167). -/
theorem bigDecode_eq (s : State) :
    bigDecode s =
      match s.cmd.dec with
      | .none => some (finish .ok s)
      | .exec => bigExec s
      | _ => bigFixed s := by
  unfold bigDecode bigFixed
  cases s.cmd.dec <;> rfl

/-- A turn that dispatches, and `decode_dec` of R173. -/
theorem bigDecode_follows {p : Phase} {s u : State} (busy : p ≠ .idle) (turn : turnOf p s = .moves (dispatch u)) :
    Follows p s (bigDecode u) := by
  rw [bigDecode_eq]
  rw [dispatch_eq] at turn
  cases hd : u.cmd.dec with
  | none =>
    simp only [hd] at turn
    exact .ends busy turn rfl
  | exec =>
    simp only [hd] at turn
    exact .goesOn busy turn (bigExec_follows u)
  | version | cameraAngle | threshold | detsize | faceAngle =>
    simp only [hd] at turn
    exact .goesOn busy turn (bigFixed_follows u)

/-! ### The command

The program of R173 is cut at its requests, last part first; `bigExecute_eq` puts the parts together.
-/

/-- The program of R173 from the header on. -/
def bigHeader (s : State) : Option State :=
  (tRead rspHdrLen s).bind fun r =>
    match decodeHeader r.1 with
    | none => some (finish .shortHeader r.2)
    | some h =>
      let u := { r.2 with hdr := ⟨h.syncByte, h.status, h.payloadLength⟩ }
      match validate u.params.sync h with
      | .badSync => some (finish .badSync u)
      | .deviceError _ => some (finish .device u)
      | .valid => bigDecode { u with data.budgetLeft := u.hdr.len }

theorem bigHeader_follows (s : State) : Follows .header s (bigHeader s) := by
  rw [bigHeader]
  cases hr : tRead rspHdrLen s with
  | none => exact .waits nofun (headerTurn_waits.mpr (tRead_none.mp hr))
  | some r =>
    obtain ⟨bs, u⟩ := r
    rw [Option.bind_some]
    cases hd : decodeHeader bs with
    | none => exact .ends nofun (headerTurn_short hr (decodeHeader_none.mp hd)) rfl
    | some h =>
      have turn : turnOf .header s = .moves (takeHeader h u) := headerTurn_read hr hd
      unfold takeHeader at turn
      dsimp only at turn ⊢
      cases hv : validate u.params.sync h with
      | badSync =>
        simp only [hv] at turn
        exact .ends nofun turn rfl
      | deviceError status =>
        simp only [hv] at turn
        exact .ends nofun turn rfl
      | valid =>
        simp only [hv] at turn
        exact bigDecode_follows nofun turn

/-- The program of R173 after its poll loop. -/
def bigPolled (polled : Bool × State) : Option State :=
  if !polled.1 then some (finish .timeout polled.2) else bigHeader polled.2

/-- The program of R173 from the send on. -/
def bigSend (s : State) : Option State :=
  (tWrite (sendFrame s.params s.cmd) s).bind fun w =>
    if w.1 < cmdHdrLen + w.2.cmd.len.toNat then some (finish .write w.2)
    else (bigPoll (w.2.link.answers.length + 1) { w.2 with tick := 0 }).bind bigPolled

theorem bigSend_follows (s : State) : Follows .send s (bigSend s) := by
  have turn : turnOf .send s = sendTurn s := rfl
  rw [sendTurn] at turn
  rw [bigSend]
  cases h : tWrite (sendFrame s.params s.cmd) s with
  | none =>
    rw [h] at turn
    exact .waits nofun turn
  | some w =>
    simp only [h] at turn
    rw [Option.bind_some]
    by_cases hc : w.1 < cmdHdrLen + w.2.cmd.len.toNat
    · rw [if_pos hc] at turn ⊢
      exact .ends nofun turn rfl
    · rw [if_neg hc] at turn ⊢
      exact .goesOn (q := .wait) (u := { w.2 with tick := 0 }) nofun turn
        (bigPoll_follows bigHeader_follows (fun _ => rfl) (Nat.lt_succ_self _))

/-- R173's program: the accept step's latch and length test, then the send. -/
theorem bigExecute_eq (d : Decoder) (c : Command) (s : State) :
    bigExecute d c s =
      if (latchCommand d c s).cmd.len.toNat > maxPayload then some (finish .payloadTooLarge (latchCommand d c s))
      else bigSend (latchCommand d c s) := rfl

/-- The accept step on the only offer there is. -/
theorem unitTurn_offered {s : State} {c : Command} {d : Decoder} (hp : s.phase = .idle) (free : s.offers = [])
    (hd : decoderOfCode c.dec = some d) (hc : configReady d c.imgreq s.cfg = true) :
    unitTurn (offerCommand c s) = .moves (admitLength (latchCommand d c s)) := by
  have offers : (offerCommand c s).offers = [c] := by rw [offerCommand_offers, free, List.nil_append]
  have taken : { offerCommand c s with offers := [] } = s := by
    rw [← free]
    rfl
  have accepts := idleTurn_accepts offers hd hc
  rw [taken] at accepts
  rw [unitTurn_eq_turnOf, offerCommand_phase, hp]
  exact accepts

/-- A command on an empty port in IDLE, its configuration written: the run comes to what the program gives. -/
theorem presentCommand_runsTo {s : State} {c : Command} {d : Decoder} (hp : s.phase = .idle) (free : s.offers = [])
    (hd : decoderOfCode c.dec = some d) (hc : configReady d c.imgreq s.cfg = true) :
    RunsTo (bigExecute d c s) (presentCommand c s) := by
  have accept := unitTurn_offered hp free hd hc
  have budget : turnBudget (offerCommand c s) = s.link.answers.length + 4 + 1 := by simp [turnBudget, free]
  have run : presentCommand c s = runUnit (fun _ => false) (s.link.answers.length + 4)
      (admitLength (latchCommand d c s)) := by
    rw [presentCommand, runUntilWaits, budget, runUnit_moves accept]
  rw [run, bigExecute_eq, admitLength]
  by_cases long : (latchCommand d c s).cmd.len.toNat > maxPayload
  · rw [if_pos long, if_pos long, runUnit_waits (waiting_finish (by exact free) _)]
    exact ⟨fun t given => congrArg _ (Option.some.inj given), fun given => absurd given nofun⟩
  · rw [if_neg long, if_neg long]
    have work : workIn .send (latchCommand d c s) ≤ s.link.answers.length + 4 := by
      simp [workIn, free, Phase.freeMoves]
    exact (bigSend_follows (latchCommand d c s)).run free work

/-- Settles O42: a command of the table is presented with its bound decoder. -/
theorem commandAgreesWithBigStep : Obligations.CommandAgreesWithBigStep := by
  intro s k len payload imgreq hp free img hc
  rw [exec_command]
  exact presentCommand_runsTo hp free (decoderOfCode_decoderCode _) hc

end Sys2Proof.Machine
end

section
/-!
PROOFS. The fixed-shape decoders (43_decoders.md R186, R187): the `FIXED` step, and the rows of the decoder codes that
invoke a decoder of one request or of none (R190 to R195).
-/

namespace Sys2Proof.Machine

/-! ### The `FIXED` step -/

/-- `RB` holds every shape (10_state.md R29). -/
theorem shapeLen_le (d : Decoder) : shapeLen d ≤ 19 := by
  cases d <;> decide

/-- The bytes of a shape in `RB` (43_decoders.md R187). -/
def shapeTaken (n : Nat) (bs : List Byte) (s : State) : State :=
  { s with data.rb := latchBytes 19 s.freeIdx n bs, freeIdx := s.freeIdx + 1 }

theorem shapeTaken_rb_take {n : Nat} {bs : List Byte} (hn : n ≤ 19) (hb : bs.length = n) (s : State) :
    (shapeTaken n bs s).data.rb.toList.take n = bs := by
  rw [shapeTaken, latchBytes_take hn hb.ge, List.take_of_length_le hb.le]

theorem fixedTurn_full {s u : State} {bs : List Byte} (hu : tRead (shapeLen s.cmd.dec) s = some (bs, u))
    (hb : bs.length = shapeLen s.cmd.dec) :
    fixedTurn s = .moves (finish .ok (shapeTaken (shapeLen s.cmd.dec) bs u)) := by
  simp only [fixedTurn, hu]
  exact if_neg (Nat.not_lt.mpr hb.ge)

theorem fixedTurn_short {s u : State} {bs : List Byte} (hu : tRead (shapeLen s.cmd.dec) s = some (bs, u))
    (hb : bs.length < shapeLen s.cmd.dec) : fixedTurn s = .moves (finish .shortRead u) := by
  simp only [fixedTurn, hu]
  exact if_pos hb

/-- Settles O22: the request answered, and the count of its bytes against the shape. -/
theorem fixedStep : Obligations.FixedStep := by
  intro s a rest _ ha _ _ n pool bs u
  have read : tRead n s = some (bs, u) := tRead_cons ha
  refine ⟨fun short => congrArg (Turn.outcome · s) (fixedTurn_short read short), fun full => ?_⟩
  exact ⟨_, shapeTaken_rb_take (shapeLen_le _) full u, congrArg (Turn.outcome · s) (fixedTurn_full read full)⟩

/-! ### A decoder run to its end -/

theorem runUntilIdle_idle {s : State} (h : s.phase = .idle) : runUntilIdle s = .next s :=
  if_pos (beq_iff_eq.mpr h)

/-- A turn that ends its command ends the run. -/
theorem runUntilIdle_ends {s t : State} (busy : s.phase ≠ .idle) (turn : unitTurn s = .moves t)
    (idle : t.phase = .idle) : runUntilIdle s = .next t := by
  simp [runUntilIdle, turnBudget, runUnit, busy, turn, idle]

/-! ### `DEC_NONE` -/

theorem dispatch_none {s : State} (h : s.cmd.dec = .none) : dispatch s = finish .ok s := by
  rw [dispatch, h]

/-- Settles O35: `finish` follows the invocation at once. -/
theorem decoderNoneCompletes : Obligations.DecoderNoneCompletes := by
  refine fun s => ⟨fun chosen => ?_, invokeDecoder_other⟩
  have ended : enterDecoder s = finish .ok { s with data.budgetLeft := s.hdr.len } := dispatch_none chosen
  refine (invokeDecoder_chosen chosen).trans ?_
  rw [ended]
  exact runUntilIdle_idle rfl

/-! ### The five fixed shapes -/

theorem dispatch_fixed {s : State} (hn : s.cmd.dec ≠ .none) (hx : s.cmd.dec ≠ .exec) :
    dispatch s = s.enter .fixed := by
  rcases dispatch_cases s with ⟨isNone, -⟩ | ⟨-, -, fixed⟩ | ⟨isExec, -⟩
  · exact absurd isNone hn
  · exact fixed
  · exact absurd isExec hx

/-- The rows of the fixed shapes, with each decoder and its bytes (43_decoders.md R186). -/
def fixedRows : List (Instr × Decoder × Nat) :=
  [(.decVersion, .version, 19), (.decCameraAngle, .cameraAngle, 1), (.decThreshold, .threshold, 8),
    (.decDetsize, .detsize, 12), (.decFaceAngle, .faceAngle, 2)]

/-- Each of the rows invokes its decoder, which is one of a fixed shape. -/
theorem mem_fixedRows {i : Instr} {d : Decoder} {n : Nat} (h : (i, d, n) ∈ fixedRows) :
    n = shapeLen d ∧ d ≠ .none ∧ d ≠ .exec ∧ ∀ s, exec i s = invokeDecoder d s := by
  simp only [fixedRows, List.mem_cons, Prod.mk.injEq, List.not_mem_nil, or_false] at h
  obtain ⟨rfl, rfl, rfl⟩ | ⟨rfl, rfl, rfl⟩ | ⟨rfl, rfl, rfl⟩ | ⟨rfl, rfl, rfl⟩ | ⟨rfl, rfl, rfl⟩ := h
  all_goals exact ⟨rfl, nofun, nofun, fun _ => rfl⟩

/-- A decoder of a fixed shape, invoked, is its `FIXED` step, which ends the command. -/
theorem invokeDecoder_fixed {s t : State} (hn : s.cmd.dec ≠ .none) (hx : s.cmd.dec ≠ .exec)
    (turn : fixedTurn { s with data.budgetLeft := s.hdr.len } = .moves t) (idle : t.phase = .idle) :
    invokeDecoder s.cmd.dec s = .next t := by
  have entered : enterDecoder s = State.enter .fixed { s with data.budgetLeft := s.hdr.len } := dispatch_fixed hn hx
  rw [invokeDecoder_chosen rfl, entered]
  exact runUntilIdle_ends nofun ((unitTurn_enter ..).trans turn) idle

/-- Settles O36: dispatch leads to `FIXED`, whose step does not look at `PHASE`. -/
theorem fixedDecodersComplete : Obligations.FixedDecodersComplete := by
  intro s i d n row
  obtain ⟨rfl, hn, hx, invokes⟩ := mem_fixedRows row
  refine ⟨fun other => (invokes s).trans (invokeDecoder_other other), ?_⟩
  rintro rfl a rest ha pool bs u
  have read : tRead (shapeLen s.cmd.dec) { s with data.budgetLeft := s.hdr.len } = some (bs, u) := tRead_cons ha
  refine ⟨fun full => ⟨_, shapeTaken_rb_take (shapeLen_le _) full u, ?_⟩, fun short => ?_⟩
  · exact (invokes s).trans (invokeDecoder_fixed hn hx (fixedTurn_full read full) rfl)
  · exact (invokes s).trans (invokeDecoder_fixed hn hx (fixedTurn_short read short) rfl)

end Sys2Proof.Machine
end

section
/-!
PROOFS. The set and the get commands (43_decoders.md R195 to R204) on a plain queue with a valid header, and what
the host sees of a failed command (R205).
-/

namespace Sys2Proof.Machine

/-! ### A valid header on a plain queue -/

/-- A command of the table whose valid header was read off a plain queue, as dispatch meets it. -/
def headerTaken (k : CommandKind) (len : Word16) (payload : List Byte) (imgreq : Bool) (length : Word32)
    (queue : List Byte) (rest : List Answer) (s : State) : State :=
  let u := headerRead k len payload imgreq (encodeHeader s.params.sync 0 length) queue rest s
  { u with hdr := ⟨s.params.sync, 0, length⟩, data.budgetLeft := length }

theorem takeHeader_valid {h : ResponseHeader} {s : State} (hsync : h.syncByte = s.params.sync)
    (hstatus : h.status = 0) :
    takeHeader h s = enterDecoder { s with hdr := ⟨h.syncByte, h.status, h.payloadLength⟩ } := by
  rcases takeHeader_cases h s with ⟨bad, -⟩ | ⟨-, bad, -⟩ | ⟨-, -, valid⟩
  · exact absurd hsync bad
  · exact absurd hstatus bad
  · exact valid

/-- A ready host's command on a plain queue with a valid header first runs to dispatch (42_executor.md R155, R167). -/
theorem exec_command_reaches_dispatch {s : State} (hs : HostReady s) {n : Nat} (hq : PlainQueue n s) {len : Word16}
    (hl : len.toNat ≤ 28) {payload : List Byte} (hp : payload.length = len.toNat) {sent polled read : Answer}
    {rest : List Answer} (ha : s.link.answers = sent :: polled :: read :: rest) {length : Word32} {queue : List Byte}
    (hin : s.link.inbound = encodeHeader s.params.sync 0 length ++ queue) (k : CommandKind) (imgreq : Bool) :
    exec (k.instr len payload imgreq) s = runUnit (fun _ => false) (rest.length + 4)
      (dispatch (headerTaken k len payload (if k = .execute then imgreq else false) length queue rest s)) := by
  obtain ⟨hread, -, hcount⟩ := hq.whole read (by simp [ha])
  have nonempty : s.link.inbound ≠ [] := by rw [hin]; nofun
  rw [exec_command_reaches_header hs hq nonempty hl hp ha]
  generalize (if k = .execute then imgreq else false) = asked
  have turn := headerStart_read hin (rest := rest) hread (hcount.trans' (by decide)) k len payload asked
  rw [takeHeader_valid rfl rfl] at turn
  exact runUnit_moves turn (rest.length + 4)

/-- The accept step latches a command of the table (42_executor.md R158). -/
theorem accepted_latched {len : Word16} (hl : len.toNat ≤ 28) {payload : List Byte} (hp : payload.length = len.toNat)
    (k : CommandKind) (imgreq : Bool) (s : State) :
    Latched k len payload imgreq s (accepted k len payload imgreq s) where
  opcodeHeld := rfl
  lenHeld := rfl
  payloadHeld := by
    have held := latchBytes_take (draw := s.freeIdx) hl (bytes := (portPayload payload).toList) (by simpa using hl)
    refine held.trans ?_
    rw [← hp, portPayload_take (hp.trans_le hl)]
  decHeld := rfl
  imgreqHeld := rfl
  shadowHeld := rfl

/-- What is latched is in `C_*` and in the shadows, which the rest of the command leaves alone. -/
theorem Latched.of_eq {k : CommandKind} {len : Word16} {payload : List Byte} {imgreq : Bool} {s t u : State}
    (h : Latched k len payload imgreq s t) (hcmd : u.cmd = t.cmd) (hshadow : u.shadow = t.shadow) :
    Latched k len payload imgreq s u where
  opcodeHeld := hcmd ▸ h.opcodeHeld
  lenHeld := hcmd ▸ h.lenHeld
  payloadHeld := hcmd ▸ h.payloadHeld
  decHeld := hcmd ▸ h.decHeld
  imgreqHeld := hcmd ▸ h.imgreqHeld
  shadowHeld := hshadow ▸ h.shadowHeld

/-! ### The set commands -/

/-- A set command is bound to `DEC_NONE` (30_encoding.md R97). -/
theorem boundDecoder_set {k : CommandKind}
    (h : k ∈ [CommandKind.setCameraAngle, .setThreshold, .setDetectionSize, .setFaceAngle]) :
    boundDecoder k = .none := by
  revert h
  cases k <;> decide

/-- `cmd_imgreq` is `EXECUTE`'s alone, and `EXECUTE` is bound to `DEC_EXEC` (10_state.md R22; 30_encoding.md R97). -/
theorem ne_execute_of_boundDecoder {k : CommandKind} (h : boundDecoder k ≠ .exec) : k ≠ .execute := by
  rintro rfl
  exact h rfl

/-- Settles O38: the run to dispatch, which finishes without a decoder, and IDLE with nothing on the port. -/
theorem setCommandsComplete : Obligations.SetCommandsComplete := by
  intro s k len payload imgreq length queue hk hs hq hl hp hin
  obtain ⟨sent, polled, read, rest, ha⟩ := hq.three
  have bound := boundDecoder_set hk
  have run := exec_command_reaches_dispatch hs hq hl hp ha hin k imgreq
  rw [if_neg (ne_execute_of_boundDecoder (by rw [bound]; nofun)), dispatch_none bound,
    runUnit_waits (waiting_finish (by exact hs.free) .ok)] at run
  have noData : dataValidOf .ok (boundDecoder k) = false := by rw [bound]; rfl
  have latched := accepted_latched hl hp k false s
  refine ⟨_, run, rfl, rfl, rfl, noData, rfl, rfl, rfl, latched.of_eq rfl rfl, rfl, rfl, ?_, rfl, rfl, rfl, rfl, rfl,
    ⟨rfl, rfl, rfl, rfl, rfl⟩⟩
  rw [ha]
  rfl

/-! ### The typed results -/

/-- What a get command returns for the bytes of its shape (43_decoders.md R190 to R194). -/
inductive Returns : CommandKind → List Byte → TypedResponse → Prop where
  | version (model : List Byte) (major minor release : Byte) (revision : List Byte) (hm : model.length = 12)
      (hr : revision.length = 4) : Returns .getVersion (model ++ [major, minor, release] ++ revision)
        (.version ⟨model, major, minor, release, revision⟩)
  | cameraAngle (angle : Byte) : Returns .getCameraAngle [angle] (.cameraAngle angle)
  | threshold (b0 b1 h0 h1 f0 f1 r0 r1 : Byte) : Returns .getThreshold [b0, b1, h0, h1, f0, f1, r0, r1]
      (.threshold ⟨b2i b0 b1, b2i h0 h1, b2i f0 f1, b2i r0 r1⟩)
  | detectionSize (b0 b1 b2 b3 h0 h1 h2 h3 f0 f1 f2 f3 : Byte) :
      Returns .getDetectionSize [b0, b1, b2, b3, h0, h1, h2, h3, f0, f1, f2, f3]
        (.detectionSize ⟨b2i b0 b1, b2i b2 b3, b2i h0 h1, b2i h2 h3, b2i f0 f1, b2i f2 f3⟩)
  | faceAngle (yaw roll : Byte) : Returns .getFaceAngle [yaw, roll] (.faceAngle yaw roll)

theorem Returns.length {k : CommandKind} {bytes : List Byte} {typed : TypedResponse} (h : Returns k bytes typed) :
    bytes.length = shapeLen (boundDecoder k) := by
  cases h with
  | version model _ _ _ revision hm hr => simp [hm, hr, boundDecoder, shapeLen]
  | cameraAngle | threshold | detectionSize | faceAngle => rfl

/-- A get command's decoder is one of the fixed shapes. -/
theorem Returns.fixedShape {k : CommandKind} {bytes : List Byte} {typed : TypedResponse} (h : Returns k bytes typed) :
    boundDecoder k ≠ .none ∧ boundDecoder k ≠ .exec := by
  cases h <;> exact ⟨nofun, nofun⟩

theorem Returns.dataValid {k : CommandKind} {bytes : List Byte} {typed : TypedResponse} (h : Returns k bytes typed) :
    dataValidOf .ok (boundDecoder k) = true :=
  dataValidOf_iff.mpr ⟨rfl, h.fixedShape.1⟩

/-- A byte of `RB` below those taken is one of them. -/
theorem rbAt_of_take {d : DataRegs} {bytes : List Byte} (h : d.rb.toList.take bytes.length = bytes) (i : Fin 19)
    (hi : i.val < bytes.length) : rbAt d i = bytes[i.val] := by
  have front : (d.rb.toList.take bytes.length)[i.val]? = bytes[i.val]? := by rw [h]
  simpa [rbAt, List.getElem?_take, hi] using front

/-- The views of `RB` that hold a shape's bytes are the fields of the document (43_decoders.md R188, R190 to R194). -/
theorem Returns.typedResult {k : CommandKind} {bytes : List Byte} {typed : TypedResponse} (h : Returns k bytes typed)
    {s : State} (valid : s.res.valid = true) (data : s.res.dataValid = true) (hd : s.cmd.dec = boundDecoder k)
    (held : s.data.rb.toList.take bytes.length = bytes) : s.typedResult = some typed := by
  have byte := rbAt_of_take held
  unfold State.typedResult
  rw [valid, data, hd]
  cases h with
  | version model major minor release revision hm hr =>
    have all : s.data.rb.toList = model ++ [major, minor, release] ++ revision := by
      rwa [List.take_of_length_le (by simp [hm, hr])] at held
    have front : s.data.rb.toList.take 12 = model := by rw [all, List.append_assoc, List.take_left' hm]
    have tail : (s.data.rb.toList.drop 15).take 4 = revision := by
      rw [all, List.drop_left' (by simp [hm]), List.take_of_length_le hr.le]
    simp [boundDecoder, versionView, byte, front, tail, hm, hr]
  | cameraAngle angle => simp [boundDecoder, byte]
  | threshold => simp [boundDecoder, thresholdView, byte]
  | detectionSize => simp [boundDecoder, detectionSizeView, byte]
  | faceAngle yaw roll => simp [boundDecoder, byte]

/-! ### The get commands -/

/-- The first four answers of a plain queue: to the frame, to a poll, and to the reads of a header and of a shape. -/
theorem PlainQueue.four {s : State} (h : PlainQueue 4 s) :
    ∃ sent polled read shape rest, s.link.answers = sent :: polled :: read :: shape :: rest :=
  match s.link.answers, h.enough with
  | sent :: polled :: read :: shape :: rest, _ => ⟨sent, polled, read, shape, rest, rfl⟩

/-- The `FIXED` step on a queue with the shape's bytes first takes them and no more (43_decoders.md R187). -/
theorem fixedTurn_queued {s : State} {shape : Answer} {rest : List Answer} {bytes queue : List Byte}
    (ha : s.link.answers = shape :: rest) (hin : s.link.inbound = bytes ++ queue) (hshape : shape.arrived = [])
    (hb : bytes.length = shapeLen s.cmd.dec) (hcount : shapeLen s.cmd.dec ≤ shape.count) :
    fixedTurn s = .moves (finish .ok (shapeTaken (shapeLen s.cmd.dec) bytes { s with
      link := ⟨queue, s.link.outbound, rest⟩
      trace := s.trace ++ [.read (shapeLen s.cmd.dec) bytes] })) := by
  refine fixedTurn_full ?_ hb
  have pool : s.link.inbound ++ shape.arrived = bytes ++ queue := by rw [hshape, List.append_nil, hin]
  rw [tRead_cons ha, pool, Nat.min_eq_right hcount, List.take_left' hb, List.drop_left' hb]

/-- A run from `FIXED` takes its step. -/
theorem runUnit_fixed {s t : State} (turn : fixedTurn s = .moves t) (fuel : Nat) :
    runUnit (fun _ => false) (fuel + 1) (s.enter .fixed) = runUnit (fun _ => false) fuel t :=
  runUnit_moves ((unitTurn_enter .fixed s).trans turn) fuel

/-- The end of a get command on a plain queue: its shape's bytes in `RB`. -/
def shapeReturned (k : CommandKind) (len : Word16) (payload : List Byte) (length : Word32) (bytes queue : List Byte)
    (rest : List Answer) (s : State) : State :=
  let u := headerTaken k len payload false length queue rest s
  finish .ok (shapeTaken bytes.length bytes { u with trace := u.trace ++ [.read bytes.length bytes] })

/-- `finish` keeps the shape's bytes, for a get command has data. -/
theorem Returns.rb_take {k : CommandKind} {bytes : List Byte} {typed : TypedResponse} (h : Returns k bytes typed)
    (len : Word16) (payload : List Byte) (length : Word32) (queue : List Byte) (rest : List Answer) (s : State) :
    (shapeReturned k len payload length bytes queue rest s).data.rb.toList.take bytes.length = bytes := by
  rw [shapeReturned, finish_data, if_pos (by exact h.dataValid)]
  exact shapeTaken_rb_take (h.length.trans_le (shapeLen_le _)) rfl _

/-- A get command on a plain queue with a valid header and its shape's bytes first runs to its end. -/
theorem exec_command_returns {s : State} {k : CommandKind} {bytes : List Byte} {typed : TypedResponse}
    (h : Returns k bytes typed) (hs : HostReady s) (hq : PlainQueue 4 s) {len : Word16} (hl : len.toNat ≤ 28)
    {payload : List Byte} (hp : payload.length = len.toNat) {length : Word32} {queue : List Byte}
    (hin : s.link.inbound = encodeHeader s.params.sync 0 length ++ bytes ++ queue) (imgreq : Bool) :
    exec (k.instr len payload imgreq) s = .next
      (shapeReturned k len payload length bytes queue (s.link.answers.drop 4) s) := by
  obtain ⟨sent, polled, read, shape, rest, ha⟩ := hq.four
  obtain ⟨arrived, -, count⟩ := hq.whole shape (by simp [ha])
  obtain ⟨hn, hx⟩ := h.fixedShape
  rw [List.append_assoc] at hin
  rw [exec_command_reaches_dispatch hs hq hl hp ha hin, if_neg (ne_execute_of_boundDecoder hx), dispatch_fixed hn hx]
  have fits := (shapeLen_le (boundDecoder k)).trans (count.trans' (by decide))
  have turn := fixedTurn_queued (s := headerTaken k len payload false length (bytes ++ queue) (shape :: rest) s)
    rfl rfl arrived h.length fits
  rw [runUnit_fixed turn, runUnit_waits (waiting_finish (by exact hs.free) .ok), ha, shapeReturned, h.length]
  rfl

/-- Settles O39: the bytes in `RB`, and the views of them. -/
theorem getCommandsReturnFields : Obligations.GetCommandsReturnFields := by
  intro s k len payload imgreq length bytes queue typed hr hs hq hl hp hin
  have returns : Returns k bytes typed := by
    rcases hr with ⟨rfl, _, _, _, _, _, hm, hv, rfl, rfl⟩ | ⟨rfl, _, rfl, rfl⟩ |
      ⟨rfl, _, _, _, _, _, _, _, _, rfl, rfl⟩ | ⟨rfl, _, _, _, _, _, _, _, _, _, _, _, _, rfl, rfl⟩ |
      ⟨rfl, _, _, rfl, rfl⟩
    · exact .version _ _ _ _ _ hm hv
    · exact .cameraAngle _
    · exact .threshold ..
    · exact .detectionSize ..
    · exact .faceAngle _ _
  have held := returns.rb_take len payload length queue (s.link.answers.drop 4) s
  have latched := accepted_latched hl hp k false s
  exact ⟨_, exec_command_returns returns hs hq hl hp hin imgreq, rfl, rfl, rfl,
    returns.typedResult rfl returns.dataValid rfl held, returns.dataValid, rfl, rfl, rfl, held, latched.of_eq rfl rfl,
    rfl, rfl, rfl, rfl, rfl, rfl, rfl, rfl, ⟨rfl, rfl, rfl, rfl, rfl⟩⟩

/-! ### A failed command -/

/-- Settles O59: `finish` computed `RES_DATA_VALID` from the code (10_state.md R36). -/
theorem failureHasNoTypedResult : Obligations.FailureHasNoTypedResult := by
  intro s inv valid failed
  have noData : s.res.dataValid = false := by
    rw [inv.dataValid valid]
    exact Bool.eq_false_iff.mpr fun ok => failed (dataValidOf_iff.mp ok).1
  refine ⟨noData, typedResult_of_no_data noData, ?_⟩
  simp [State.diagnostic, valid, failed]

end Sys2Proof.Machine
end

section
/-!
PROOFS. The budget (44_execute_image.md R230): `consume` in full, and that neither `H_LEN` nor the budget is looked
at by any step (42_executor.md R168).
-/

namespace Sys2Proof.Machine

/-! ### `consume` -/

/-- A count taken off a register that holds at least as much. -/
theorem sub_ofNat_toNat {k : Nat} {r : Word32} (h : k ≤ r.toNat) : (r - BitVec.ofNat 32 k).toNat = r.toNat - k := by
  have small : (BitVec.ofNat 32 k).toNat = k := by
    rw [BitVec.toNat_ofNat]
    exact Nat.mod_eq_of_lt (h.trans_lt r.isLt)
  rw [BitVec.toNat_sub_of_le (by rw [BitVec.le_def, small]; exact h), small]

/-- `BUDGET_LEFT` after `consume(k)`. -/
def budgetAfter (k : Nat) (budget : Word32) : Word32 :=
  if k > budget.toNat then 0 else budget - BitVec.ofNat 32 k

/-- `consume` as one update of the two registers it writes. -/
theorem consume_eq (k : Nat) (s : State) :
    consume k s = { s with
      data.budgetLeft := budgetAfter k s.data.budgetLeft
      res.overBudget := s.res.overBudget || decide (s.data.budgetLeft.toNat < k) } := by
  by_cases h : k > s.data.budgetLeft.toNat
  · simp [consume, budgetAfter, h]
  · simp [consume, budgetAfter, h]

/-- Settles O29: the two registers `consume` writes, and the frame of its one update. -/
theorem consumeKeepsBudget : Obligations.ConsumeKeepsBudget := by
  refine fun k s => ⟨consume_budgetLeft_toNat k s, ?_, ?_⟩
  · rw [consume_overBudget, Bool.or_eq_true, decide_eq_true_iff]
  · rw [consume_eq]

/-! ### Two states that differ in the budget -/

/-- `s` without what the budget is counted in: `H_LEN`, `BUDGET_LEFT` and `RES_OVER_BUDGET`. -/
def eraseBudget (s : State) : State :=
  { s with hdr.len := 0, data.budgetLeft := 0, res.overBudget := false }

@[simp] theorem eraseBudget_phase (s : State) : (eraseBudget s).phase = s.phase := rfl
@[simp] theorem eraseBudget_items (s : State) : (eraseBudget s).items = s.items := rfl
@[simp] theorem eraseBudget_cmd (s : State) : (eraseBudget s).cmd = s.cmd := rfl
@[simp] theorem eraseBudget_imgRem (s : State) : (eraseBudget s).data.imgRem = s.data.imgRem := rfl
@[simp] theorem eraseBudget_link (s : State) : (eraseBudget s).link = s.link := rfl
@[simp] theorem eraseBudget_yld (s : State) : (eraseBudget s).yld = s.yld := rfl
@[simp] theorem eraseBudget_params (s : State) : (eraseBudget s).params = s.params := rfl

/-- States that agree but for the budget are each other with that restored. -/
theorem restore_of_eraseBudget_eq {s t : State} (h : eraseBudget s = eraseBudget t) :
    { s with
      hdr.len := t.hdr.len
      data.budgetLeft := t.data.budgetLeft
      res.overBudget := t.res.overBudget } = t :=
  congrArg (fun u : State => { u with
    hdr.len := t.hdr.len
    data.budgetLeft := t.data.budgetLeft
    res.overBudget := t.res.overBudget }) h

/-! ### The requests do not look at the budget -/

theorem takeAnswer_eraseBudget (s : State) :
    takeAnswer (eraseBudget s) = (takeAnswer s).map (Prod.map id eraseBudget) := by
  simp only [takeAnswer, eraseBudget_link]
  cases s.link.answers <;> rfl

theorem tWrite_eraseBudget (frame : List Byte) (s : State) :
    tWrite frame (eraseBudget s) = (tWrite frame s).map (Prod.map id eraseBudget) := by
  simp only [tWrite, takeAnswer_eraseBudget]
  cases takeAnswer s <;> rfl

theorem tAvail_eraseBudget (s : State) :
    tAvail (eraseBudget s) = (tAvail s).map (Prod.map id eraseBudget) := by
  simp only [tAvail, takeAnswer_eraseBudget]
  cases takeAnswer s <;> rfl

theorem tRead_eraseBudget (n : Nat) (s : State) :
    tRead n (eraseBudget s) = (tRead n s).map (Prod.map id eraseBudget) := by
  simp only [tRead, takeAnswer_eraseBudget]
  cases takeAnswer s <;> rfl

theorem sinkWrite_eraseBudget (bs : List Byte) (s : State) :
    sinkWrite bs (eraseBudget s) = (sinkWrite bs s).map eraseBudget := by
  rw [sinkWrite, sinkWrite, apply_ite (Option.map eraseBudget)]
  rfl

theorem resume_eraseBudget (s : State) : resume (eraseBudget s) = (resume s).map eraseBudget := by
  simp only [resume, eraseBudget_yld]
  rw [apply_ite (Option.map eraseBudget)]
  cases s.yld.acks <;> rfl

/-- Two choices made alike agree under `f` where their branches do. -/
theorem apply_ite_congr {α β : Type} (f : α → β) {p q : Prop} [Decidable p] [Decidable q] {a b a' b' : α}
    (h : p ↔ q) (ha : f a = f a') (hb : f b = f b') : f (if p then a else b) = f (if q then a' else b') := by
  rw [apply_ite f, apply_ite f]
  exact if_congr h ha hb

/-! ### The shared operations write at most the budget from the budget -/

/-- `f` leads states that agree but for the budget to such states. -/
def BudgetBlind (f : State → State) : Prop :=
  ∀ s t, eraseBudget s = eraseBudget t → eraseBudget (f s) = eraseBudget (f t)

theorem eraseBudget_consume (k : Nat) (s : State) : eraseBudget (consume k s) = eraseBudget s := by
  rw [consume_eq]
  rfl

/-- It is enough to compare with the state whose budget is erased. -/
theorem budgetBlind_of_erased {f : State → State} (h : ∀ s, eraseBudget (f (eraseBudget s)) = eraseBudget (f s)) :
    BudgetBlind f := fun s t he => by rw [← h s, he, h t]

theorem budgetBlind_finish (code : ResCode) : BudgetBlind (finish code) := by
  refine budgetBlind_of_erased fun s => ?_
  unfold finish
  cases h : dataValidOf code s.cmd.dec <;> simp [eraseBudget, h]

/-- Bytes of a sub-header or of a block counted, and the decoder goes on (44_execute_image.md R216, R218, R219). -/
theorem budgetBlind_counted (k : Nat) (items : Byte) (p : Phase) :
    BudgetBlind fun s => { consume k s with items := items, phase := p } := fun s t h =>
  congrArg (fun u : State => { u with items := items, phase := p })
    ((eraseBudget_consume k s).trans (h.trans (eraseBudget_consume k t).symm))

theorem budgetBlind_dispatch : BudgetBlind dispatch := by
  refine budgetBlind_of_erased fun s => ?_
  simp only [dispatch, eraseBudget_cmd]
  cases s.cmd.dec with
  | none => exact budgetBlind_finish .ok _ _ rfl
  | version | cameraAngle | threshold | detsize | faceAngle | exec => rfl

/-- The header's fields, `H_LEN` among them, are registered anew, and the budget with them. -/
theorem budgetBlind_takeHeader (h : ResponseHeader) : BudgetBlind (takeHeader h) := by
  refine budgetBlind_of_erased fun s => ?_
  simp only [takeHeader, eraseBudget_params]
  cases validate s.params.sync h with
  | badSync => exact budgetBlind_finish .badSync _ _ rfl
  | deviceError status => exact budgetBlind_finish .device _ _ rfl
  | valid => exact budgetBlind_dispatch _ _ rfl

theorem budgetBlind_emptyWaitPoll : BudgetBlind emptyWaitPoll := by
  refine budgetBlind_of_erased fun s => ?_
  simp only [emptyWaitPoll]
  exact apply_ite_congr eraseBudget Iff.rfl (budgetBlind_finish .timeout _ _ rfl) rfl

theorem budgetBlind_emptyDrainPoll : BudgetBlind emptyDrainPoll := by
  refine budgetBlind_of_erased fun s => ?_
  simp only [emptyDrainPoll]
  exact apply_ite_congr eraseBudget Iff.rfl (budgetBlind_finish .ok _ _ rfl) rfl

/-- The registers that the dimension read sets (44_execute_image.md R222). -/
def dimensionsSet (w h : Word16) (s : State) : State :=
  { s with data.imgW := w, data.imgH := h, data.imgRem := mul16 w h, res.imgPresent := true }

theorem dimensionsTaken_eq (w h : Word16) (s : State) :
    dimensionsTaken w h s = consume imgDimLen (dimensionsSet w h s) := by
  rw [dimensionsTaken, consume_eq, consume_eq]
  rfl

theorem chunkTaken_eq (k : Nat) (s : State) :
    chunkTaken k s = consume k { s with
      data.imgRem := s.data.imgRem - BitVec.ofNat 32 k
      retry := if s.params.imgRetryResetOnData then 0 else s.retry } := by
  rw [chunkTaken, consume_eq, consume_eq]

/-- The dimensions are in, told by the number of bytes to come (44_execute_image.md R222). -/
theorem takeDimensions_eq (w h : Word16) (s : State) :
    takeDimensions w h s =
      if mul16 w h = 0 then finish .ok (dimensionsTaken w h s)
      else { dimensionsTaken w h s with retry := 0, phase := .imgStream } := rfl

theorem budgetBlind_takeDimensions (w h : Word16) : BudgetBlind (takeDimensions w h) := by
  have taken : ∀ s, eraseBudget (dimensionsTaken w h (eraseBudget s)) = eraseBudget (dimensionsTaken w h s) := by
    intro s
    rw [dimensionsTaken_eq, dimensionsTaken_eq, eraseBudget_consume, eraseBudget_consume]
    rfl
  refine budgetBlind_of_erased fun s => ?_
  rw [takeDimensions_eq, takeDimensions_eq]
  exact apply_ite_congr eraseBudget Iff.rfl (budgetBlind_finish .ok _ _ (taken s))
    (congrArg (fun u : State => { u with retry := 0, phase := .imgStream }) (taken s))

theorem budgetBlind_takeChunk (k : Nat) : BudgetBlind (takeChunk k) := by
  have taken : ∀ s, eraseBudget (chunkTaken k (eraseBudget s)) = eraseBudget (chunkTaken k s) := by
    intro s
    rw [chunkTaken_eq, chunkTaken_eq, eraseBudget_consume, eraseBudget_consume]
    rfl
  refine budgetBlind_of_erased fun s => ?_
  have left : (chunkTaken k (eraseBudget s)).data.imgRem = (chunkTaken k s).data.imgRem := by simp [chunkTaken]
  simp only [takeChunk, left]
  exact apply_ite_congr eraseBudget Iff.rfl (budgetBlind_finish .ok _ _ (taken s))
    (congrArg (fun u : State => { u with phase := .imgStream }) (taken s))

/-! ### The turns -/

/-- A step that goes the same way whatever the budget holds, to states that agree but for the budget. -/
def BudgetBlindTurn (f : State → Turn) : Prop :=
  ∀ s, (f (eraseBudget s)).map eraseBudget = (f s).map eraseBudget

theorem budgetBlind_sendTurn : BudgetBlindTurn sendTurn := by
  intro s
  simp only [sendTurn, eraseBudget_params, eraseBudget_cmd, tWrite_eraseBudget]
  cases tWrite (sendFrame s.params s.cmd) s with
  | none => rfl
  | some r =>
    simp only [Option.map_some, Prod.map, id_eq]
    exact apply_ite_congr (Turn.map eraseBudget) Iff.rfl (congrArg Turn.moves (budgetBlind_finish .write _ _ rfl)) rfl

theorem budgetBlind_waitTurn : BudgetBlindTurn waitTurn := by
  intro s
  simp only [waitTurn, resume_eraseBudget]
  cases resume s with
  | none => rfl
  | some u =>
    simp only [Option.map_some, tAvail_eraseBudget]
    cases tAvail u with
    | none => rfl
    | some r =>
      simp only [Option.map_some, Prod.map, id_eq]
      exact apply_ite_congr (Turn.map eraseBudget) Iff.rfl rfl (congrArg Turn.moves (budgetBlind_emptyWaitPoll _ _ rfl))

theorem budgetBlind_headerTurn : BudgetBlindTurn headerTurn := by
  intro s
  simp only [headerTurn, tRead_eraseBudget]
  cases tRead rspHdrLen s with
  | none => rfl
  | some r =>
    simp only [Option.map_some, Prod.map, id_eq]
    cases decodeHeader r.1 with
    | none => exact congrArg Turn.moves (budgetBlind_finish .shortHeader _ _ rfl)
    | some h => exact congrArg Turn.moves (budgetBlind_takeHeader h _ _ rfl)

theorem budgetBlind_fixedTurn : BudgetBlindTurn fixedTurn := by
  intro s
  simp only [fixedTurn, eraseBudget_cmd, tRead_eraseBudget]
  cases tRead (shapeLen s.cmd.dec) s with
  | none => rfl
  | some r =>
    simp only [Option.map_some, Prod.map, id_eq]
    exact apply_ite_congr (Turn.map eraseBudget) Iff.rfl (congrArg Turn.moves (budgetBlind_finish .shortRead _ _ rfl))
      (congrArg Turn.moves (budgetBlind_finish .ok _ _ rfl))

theorem budgetBlind_exSubTurn : BudgetBlindTurn exSubTurn := by
  intro s
  simp only [exSubTurn, tRead_eraseBudget]
  cases tRead execSubhdrLen s with
  | none => rfl
  | some r =>
    simp only [Option.map_some, Prod.map, id_eq]
    split
    · exact congrArg Turn.moves (budgetBlind_counted execSubhdrLen _ .exBody _ _ rfl)
    · exact congrArg Turn.moves (budgetBlind_finish .shortRead _ _ rfl)

theorem budgetBlind_blockTurn (p : Phase) (size : Nat) : BudgetBlindTurn (blockTurn p size) := by
  intro s
  simp only [blockTurn, tRead_eraseBudget]
  cases tRead size s with
  | none => rfl
  | some r =>
    simp only [Option.map_some, Prod.map, id_eq]
    exact apply_ite_congr (Turn.map eraseBudget) Iff.rfl
      (congrArg Turn.moves (budgetBlind_finish .shortRead _ _ rfl))
      (congrArg Turn.moves (budgetBlind_counted size _ p _ _ rfl))

theorem budgetBlind_exBodyTurn : BudgetBlindTurn exBodyTurn := by
  intro s
  rw [exBodyTurn_eq, exBodyTurn_eq]
  exact apply_ite_congr (Turn.map eraseBudget) Iff.rfl rfl (budgetBlind_blockTurn ..)

theorem budgetBlind_exHandTurn : BudgetBlindTurn exHandTurn := by
  intro s
  rw [exHandTurn_eq, exHandTurn_eq]
  refine apply_ite_congr (Turn.map eraseBudget) Iff.rfl ?_ (budgetBlind_blockTurn ..)
  exact apply_ite_congr (Turn.map eraseBudget) Iff.rfl rfl (congrArg Turn.moves (budgetBlind_finish .ok _ _ rfl))

theorem budgetBlind_imgDimTurn : BudgetBlindTurn imgDimTurn := by
  intro s
  simp only [imgDimTurn, tRead_eraseBudget]
  cases tRead imgDimLen s with
  | none => rfl
  | some r =>
    simp only [Option.map_some, Prod.map, id_eq]
    split
    · exact congrArg Turn.moves (budgetBlind_takeDimensions _ _ _ _ rfl)
    · exact congrArg Turn.moves (budgetBlind_finish .shortRead _ _ rfl)

theorem budgetBlind_imgStreamTurn : BudgetBlindTurn imgStreamTurn := by
  intro s
  simp only [imgStreamTurn, resume_eraseBudget]
  cases resume s with
  | none => rfl
  | some u =>
    simp only [Option.map_some, tAvail_eraseBudget]
    cases tAvail u with
    | none => rfl
    | some r =>
      simp only [Option.map_some, Prod.map, id_eq, eraseBudget_params, eraseBudget_imgRem, tRead_eraseBudget]
      refine apply_ite_congr (Turn.map eraseBudget) Iff.rfl ?_
        (congrArg Turn.moves (budgetBlind_emptyDrainPoll _ _ rfl))
      cases tRead (chunkSize r.2.params r.2.data.imgRem r.1) r.2 with
      | none => rfl
      | some q =>
        simp only [Option.map_some, Prod.map, id_eq, sinkWrite_eraseBudget]
        refine apply_ite_congr (Turn.map eraseBudget) Iff.rfl ?_
          (congrArg Turn.moves (budgetBlind_emptyDrainPoll _ _ rfl))
        cases sinkWrite q.1 q.2 with
        | none => rfl
        | some x => exact congrArg Turn.moves (budgetBlind_takeChunk _ _ _ rfl)

/-- A turn of a command in flight goes the same way whatever the budget holds. -/
theorem unitTurn_eraseBudget {s : State} (hb : s.phase ≠ .idle) :
    (unitTurn (eraseBudget s)).map eraseBudget = (unitTurn s).map eraseBudget := by
  simp only [unitTurn, eraseBudget_phase]
  cases hp : s.phase with
  | idle => exact absurd hp hb
  | send => exact budgetBlind_sendTurn s
  | wait => exact budgetBlind_waitTurn s
  | header => exact budgetBlind_headerTurn s
  | fixed => exact budgetBlind_fixedTurn s
  | exSub => exact budgetBlind_exSubTurn s
  | exBody => exact budgetBlind_exBodyTurn s
  | exHand => exact budgetBlind_exHandTurn s
  | imgDim => exact budgetBlind_imgDimTurn s
  | imgStream => exact budgetBlind_imgStreamTurn s

/-! ### Runs -/

theorem phase_of_eraseBudget_eq {s s' : State} (h : eraseBudget s = eraseBudget s') : s.phase = s'.phase :=
  (congrArg State.phase h :)

theorem unitTurn_of_eraseBudget_eq {s s' : State} (h : eraseBudget s = eraseBudget s') (hb : s.phase ≠ .idle) :
    (unitTurn s).map eraseBudget = (unitTurn s').map eraseBudget := by
  have phase := phase_of_eraseBudget_eq h
  rw [← unitTurn_eraseBudget hb, h, unitTurn_eraseBudget (phase ▸ hb)]

/-- Two runs from states that agree but for the budget end in such states. -/
theorem runUnit_of_eraseBudget_eq {fuel : Nat} {s s' t : State} (h : eraseBudget s = eraseBudget s')
    (run : runUnit (fun u => u.phase == .idle) fuel s = .next t) :
    ∃ t', runUnit (fun u => u.phase == .idle) fuel s' = .next t' ∧ eraseBudget t = eraseBudget t' := by
  induction fuel generalizing s s' with
  | zero =>
    cases run
    exact ⟨s', rfl, h⟩
  | succ n ih =>
    have phase : s'.phase = s.phase := (phase_of_eraseBudget_eq h).symm
    simp only [runUnit, phase, beq_iff_eq] at run ⊢
    by_cases hp : s.phase = .idle
    · rw [if_pos hp] at run ⊢
      cases run
      exact ⟨s', rfl, h⟩
    · have turns := unitTurn_of_eraseBudget_eq h hp
      rw [if_neg hp] at run ⊢
      cases hu : unitTurn s with
      | refuses r =>
        rw [hu] at run
        cases run
      | waits =>
        rw [hu] at run turns
        cases run
        cases hu' : unitTurn s' with
        | waits => exact ⟨s', rfl, h⟩
        | moves _ | refuses _ =>
          rw [hu'] at turns
          cases turns
      | moves u =>
        rw [hu] at run turns
        cases hu' : unitTurn s' with
        | moves u' =>
          rw [hu'] at turns
          exact ih (Turn.moves.inj turns) run
        | waits | refuses _ =>
          rw [hu'] at turns
          cases turns

/-- Settles O58: the two runs go the same way, and the last states agree but for the budget. -/
theorem budgetChangesNoTransition : Obligations.BudgetChangesNoTransition := by
  intro s t length budget run
  have start : eraseBudget s = eraseBudget { s with hdr.len := length, data.budgetLeft := budget } := rfl
  obtain ⟨u, run', agree⟩ := runUnit_of_eraseBudget_eq start run
  exact ⟨u, run', restore_of_eraseBudget_eq agree.symm⟩

end Sys2Proof.Machine
end

section
/-!
PROOFS. The steps of the execution-result decoder, each in full (44_execute_image.md R216, R218, R219, R222, R224).
-/

namespace Sys2Proof.Machine

/-! ### `EX_SUB` and the blocks -/

/-- `consume` neither reads nor writes `ITEMS` and `PHASE`. -/
theorem consume_with (k : Nat) (items : Byte) (p : Phase) (s : State) :
    { consume k s with items := items, phase := p } = consume k { s with items := items, phase := p } := by
  rw [consume_eq, consume_eq]

theorem notFour_of_length {bs : List Byte} (h : bs.length < 4) : NotFour bs := by
  rintro b0 b1 b2 b3 rfl
  exact absurd h (by simp)

/-- Settles O23: a short read, and the four bytes of a full one. -/
theorem exSubStep : Obligations.ExSubStep := by
  intro s a rest _ ha pool bs u
  have read : tRead execSubhdrLen s = some (bs, u) := tRead_cons ha
  refine ⟨fun short => ?_, fun body hand face reserved four => ?_⟩
  · exact congrArg (Turn.outcome · s) (exSubTurn_short read (notFour_of_length short))
  · rw [four] at read
    refine (congrArg (Turn.outcome · s) (exSubTurn_four read)).trans (congrArg Host.Outcome.next ?_)
    exact consume_with execSubhdrLen body .exBody _

/-- A block whose read was answered, in the phase of its kind. -/
theorem blockTurn_read {size : Nat} {s u : State} {bs : List Byte} (h : tRead size s = some (bs, u)) :
    blockTurn s.phase size s = .moves
      (if bs.length < size then finish .shortRead u else consume size { u with items := u.items - 1 }) := by
  have phase : u.phase = s.phase := by
    obtain ⟨link, trace, rfl⟩ := tRead_asked h
    rfl
  simp only [blockTurn, h, consume_with, ← phase]
  rw [apply_ite Turn.moves]

/-- Settles O24: no block left, or a block of the turn. -/
theorem exBodyStep : Obligations.ExBodyStep := by
  intro s hp
  have turn : exec .stepExBody s = (exBodyTurn s).outcome s := rfl
  refine ⟨fun done => ?_, ?_⟩
  · rw [turn, exBodyTurn_eq, if_pos done]
    rfl
  · intro a rest ha hi hz n pool bs u
    have read : tRead n s = some (bs, u) := tRead_cons ha
    rw [turn, exBodyTurn_eq, if_neg (not_or.mpr ⟨hi, hz⟩), ← hp, blockTurn_read read]
    rfl

/-- Settles O25: no block left, and the image asked for or not, or a block of the turn. -/
theorem exHandStep : Obligations.ExHandStep := by
  intro s hp
  have turn : exec .stepExHand s = (exHandTurn s).outcome s := rfl
  refine ⟨fun done => ?_, ?_⟩
  · rw [turn, exHandTurn_eq, if_pos done, apply_ite (Turn.outcome · s), apply_ite Host.Outcome.next]
    rfl
  · intro a rest ha hi hz n pool bs u
    have read : tRead n s = some (bs, u) := tRead_cons ha
    rw [turn, exHandTurn_eq, if_neg (not_or.mpr ⟨hi, hz⟩), ← hp, blockTurn_read read]
    rfl

/-! ### `IMG_DIM` -/

theorem mul16_eq_zero (w h : Word16) : mul16 w h = 0 ↔ w.toNat * h.toNat = 0 := by
  rw [← mul16_toNat, ← BitVec.toNat_inj]
  rfl

/-- Settles O26: a short read, and the dimensions of a full one. -/
theorem imgDimStep : Obligations.ImgDimStep := by
  intro s a rest _ ha pool bs u
  have read : tRead imgDimLen s = some (bs, u) := tRead_cons ha
  refine ⟨fun short => ?_, ?_⟩
  · exact congrArg (Turn.outcome · s) (imgDimTurn_short read (notFour_of_length short))
  · intro w0 w1 h0 h1 four v
    rw [four] at read
    refine (congrArg (Turn.outcome · s) (imgDimTurn_four read)).trans (congrArg Host.Outcome.next ?_)
    rw [takeDimensions_eq, dimensionsTaken_eq]
    exact if_congr (mul16_eq_zero ..) rfl rfl

/-! ### `IMG_STREAM` -/

/-- A poll of the drain that brought nothing, told by `RETRY` before it. -/
theorem emptyDrainPoll_eq {s : State} (hp : s.phase = .imgStream)
    (within : s.retry.toNat ≤ s.shadow.imgRetryCeil.toNat) :
    emptyDrainPoll s =
      if s.shadow.imgRetryCeil.toNat < s.retry.toNat + 1 then
        finish .ok { s with retry := s.retry + 1, res.imgIncomplete := true }
      else { s with
        retry := s.retry + 1
        yld := ⟨true, s.shadow.pollIntervalMs, s.yld.acks⟩
        trace := s.trace ++ [.yielded s.shadow.pollIntervalMs] } := by
  rw [← retry_succ within]
  rcases emptyDrainPoll_cases s with ⟨above, he⟩ | ⟨left, he⟩
  · rw [he, if_pos above]
  · rw [he, if_neg (Nat.not_lt.mpr left), ← hp]
    rfl

/-- A chunk of no more bytes than are outstanding, told by `IMG_REM` before it. -/
theorem takeChunk_eq {k : Nat} {s : State} (hp : s.phase = .imgStream) (hk : k ≤ s.data.imgRem.toNat) :
    takeChunk k s = if s.data.imgRem.toNat = k then finish .ok (chunkTaken k s) else chunkTaken k s := by
  have left : (chunkTaken k s).data.imgRem.toNat = s.data.imgRem.toNat - k := by
    have counted : (chunkTaken k s).data.imgRem = s.data.imgRem - BitVec.ofNat 32 k := by simp [chunkTaken]
    rw [counted, sub_ofNat_toNat hk]
  have phase : (chunkTaken k s).phase = .imgStream := by simp [chunkTaken, hp]
  rcases takeChunk_cases k s with ⟨hz, he⟩ | ⟨hz, he⟩
  · have none_left : (chunkTaken k s).data.imgRem.toNat = 0 := by rw [hz]; rfl
    rw [he, if_pos (by omega)]
  · have some_left : (chunkTaken k s).data.imgRem.toNat ≠ 0 := fun h => hz (BitVec.eq_of_toNat_eq h)
    rw [he, if_neg (by omega), ← phase]

theorem imgStreamTurn_nothing {s u v : State} (hu : resume s = some u) (hv : tAvail u = some (0, v)) :
    imgStreamTurn s = .moves (emptyDrainPoll v) := by
  simp only [imgStreamTurn, hu, hv, gt_iff_lt, Nat.lt_irrefl, if_false]

/-- A chunk of the drain that was read goes to the sink when it is ready for the whole of it. -/
theorem imgStreamTurn_read {s u v w : State} {a : Nat} {bs : List Byte} (hu : resume s = some u)
    (hv : tAvail u = some (a, v)) (ha : 0 < a) (hw : tRead (chunkSize v.params v.data.imgRem a) v = some (bs, w)) :
    imgStreamTurn s =
      if bs = [] then .moves (emptyDrainPoll w)
      else if w.sinkReady < bs.length then .waits
      else .moves (takeChunk bs.length (sinkTakes bs w)) := by
  simp only [imgStreamTurn, hu, hv, gt_iff_lt, ha, if_true, hw]
  by_cases hb : bs = []
  · simp [hb]
  · rw [if_neg hb, if_pos (List.length_pos_of_ne_nil hb)]
    by_cases ready : w.sinkReady < bs.length
    · rw [if_pos ready, sinkWrite_none.mpr ready]
    · rw [if_neg ready, sinkWrite_ready (Nat.not_lt.mp ready)]

/-- Settles O27: the poll, the read and the sink, each answered. -/
theorem imgStreamStep : Obligations.ImgStreamStep := by
  intro s a rest hp ha hy within pool ready u miss
  have polled := tAvail_cons (s := { s with
    yld := ⟨false, s.yld.ms, if s.yld.req then s.yld.acks - 1 else s.yld.acks⟩ }) ha
  have turn : exec .stepImgStream s = (imgStreamTurn s).outcome s := rfl
  refine ⟨retry_succ within, fun nothing => ?_, ?_⟩
  · rw [turn, imgStreamTurn_nothing (v := u) (resume_returned hy) (nothing ▸ polled)]
    exact congrArg Host.Outcome.next (emptyDrainPoll_eq (s := u) hp within)
  · intro b rest' some_ready hrest n bs v w
    have read : tRead n u = some (bs, v) := tRead_cons (s := u) hrest
    have fits : bs.length ≤ s.data.imgRem.toNat := chunk_length_le (p := s.params) (a := ready) read
    rw [turn, imgStreamTurn_read (resume_returned hy) polled some_ready read]
    by_cases hb : bs = []
    · rw [if_pos hb, if_pos hb]
      exact congrArg Host.Outcome.next (emptyDrainPoll_eq (s := v) hp within)
    · rw [if_neg hb, if_neg hb]
      by_cases late : s.sinkReady < bs.length
      · rw [if_pos late, if_pos (by exact late)]
        rfl
      · rw [if_neg late, if_neg (by exact late), takeChunk_eq (s := sinkTakes bs v) hp fits, chunkTaken_eq]
        rfl

end Sys2Proof.Machine
end

section
/-!
PROOFS. The execution-result decoder on a plain queue (44_execute_image.md R215 to R230): what its reads leave,
what the drain leaves, and the state an execution that ends `OK` is left in.
-/

namespace Sys2Proof.Machine

/-! ### The budget over several reads -/

theorem budgetAfter_toNat (k : Nat) (budget : Word32) : (budgetAfter k budget).toNat = budget.toNat - k := by
  unfold budgetAfter
  split
  · next above =>
    rw [Nat.sub_eq_zero_of_le above.le]
    rfl
  · next fits => exact sub_ofNat_toNat (Nat.not_lt.mp fits)

theorem budgetAfter_budgetAfter (j k : Nat) (budget : Word32) :
    budgetAfter k (budgetAfter j budget) = budgetAfter (j + k) budget :=
  BitVec.eq_of_toNat_eq (by simp only [budgetAfter_toNat, Nat.sub_sub])

/-- The budget sees how many bytes there are, not how they were asked for (44_execute_image.md R230). -/
theorem consume_consume (j k : Nat) (s : State) : consume k (consume j s) = consume (j + k) s := by
  have flag : (s.res.overBudget || decide (s.data.budgetLeft.toNat < j) ||
      decide (s.data.budgetLeft.toNat - j < k)) = (s.res.overBudget || decide (s.data.budgetLeft.toNat < j + k)) := by
    rw [Bool.or_assoc, ← Bool.decide_or]
    congr 2
    exact propext (by omega)
  simp only [consume_eq, budgetAfter_budgetAfter, budgetAfter_toNat, flag]

theorem consume_zero (s : State) : consume 0 s = s := by
  simp [consume]

/-! ### A plain queue -/

/-- A plain queue after some of its answers were given and some of its bytes read. -/
theorem PlainQueue.after {n m j : Nat} {s t : State} (h : PlainQueue (n + m) s) (few : j ≤ n)
    (answers : t.link.answers = s.link.answers.drop j) (inbound : t.link.inbound.length ≤ s.link.inbound.length) :
    PlainQueue m t where
  enough := by
    have enough := h.enough
    rw [answers, List.length_drop]
    omega
  whole a ha := by
    obtain ⟨arrived, all, count⟩ := h.whole a (List.mem_of_mem_drop (answers ▸ ha))
    exact ⟨arrived, inbound.trans all, count⟩

/-- The next answer of a plain queue. -/
theorem PlainQueue.next {n : Nat} {s : State} (h : PlainQueue (n + 1) s) :
    ∃ a, s.link.answers = a :: s.link.answers.drop 1 ∧ a.arrived = [] ∧ s.link.inbound.length ≤ a.count := by
  cases ha : s.link.answers with
  | nil => exact absurd h.enough (by simp [ha])
  | cons a rest =>
    obtain ⟨arrived, all, -⟩ := h.whole a (by simp [ha])
    exact ⟨a, rfl, arrived, all⟩

/-- The bytes `bs` read off the front of a queue in one request. -/
def offQueue (n : Nat) (bs rest : List Byte) (s : State) : State :=
  { s with link := ⟨rest, s.link.outbound, s.link.answers.drop 1⟩, trace := s.trace ++ [.read n bs] }

/-- A read of bytes that a plain queue has takes them and no more. -/
theorem tRead_queued {n k : Nat} {s : State} (hq : PlainQueue (n + 1) s) {bs rest : List Byte}
    (hin : s.link.inbound = bs ++ rest) (hk : bs.length = k) : tRead k s = some (bs, offQueue k bs rest s) := by
  obtain ⟨a, ha, arrived, all⟩ := hq.next
  have count : k ≤ a.count := by
    rw [hin, List.length_append] at all
    omega
  rw [tRead_cons ha, arrived, List.append_nil, hin, Nat.min_eq_right count, List.take_left' hk, List.drop_left' hk]
  rfl

/-- A poll that found all the bytes of a queue. -/
def polledAll (s : State) : State :=
  { s with
    link := ⟨s.link.inbound, s.link.outbound, s.link.answers.drop 1⟩
    trace := s.trace ++ [.polled s.link.inbound.length] }

/-- A poll of a plain queue finds all it has. -/
theorem tAvail_queued {n : Nat} {s : State} (hq : PlainQueue (n + 1) s) :
    tAvail s = some (s.link.inbound.length, polledAll s) := by
  obtain ⟨a, ha, arrived, all⟩ := hq.next
  rw [tAvail_cons ha, arrived, List.append_nil, Nat.min_eq_right all]
  rfl

/-! ### Reads that the budget counts -/

/-- `t` is `s` with `bs` read off its queue in at most `n` requests and counted, `rest` left there and nothing handed to
the sink; `ITEMS` counts the blocks. -/
inductive Reads (n : Nat) (bs rest : List Byte) (s : State) : State → Prop where
  | intro {j : Nat} {items : Byte} {trace : List Event} (few : j ≤ n) (front : s.link.inbound = bs ++ rest)
      (unsunk : sinkOf trace = sinkOf s.trace) :
      Reads n bs rest s (consume bs.length { s with
        items := items, link := ⟨rest, s.link.outbound, s.link.answers.drop j⟩, trace := trace })

theorem Reads.none (n : Nat) (s : State) : Reads n [] s.link.inbound s s := by
  have none := Reads.intro (bs := []) (s := s) (items := s.items) (Nat.zero_le n) rfl rfl
  rwa [List.length_nil, consume_zero] at none

theorem Reads.one {k : Nat} {s : State} {bs rest : List Byte} (hin : s.link.inbound = bs ++ rest)
    (hk : bs.length = k) : Reads 1 bs rest s (consume k (offQueue k bs rest s)) := by
  subst hk
  exact .intro (items := s.items) (trace := s.trace ++ [.read bs.length bs]) (Nat.le_refl 1) hin
    (by simp [sinkOf_append, sinkOf])

theorem Reads.withItems {n : Nat} {bs rest : List Byte} {s t : State} (h : Reads n bs rest s t) (items : Byte) :
    Reads n bs rest s { t with items := items } := by
  obtain ⟨few, front, unsunk⟩ := h
  have set := Reads.intro (items := items) few front unsunk
  rw [consume_eq] at set ⊢
  exact set

theorem Reads.trans {n m : Nat} {bs cs rest : List Byte} {s t u : State} (h : Reads n bs (cs ++ rest) s t)
    (g : Reads m cs rest t u) : Reads (n + m) (bs ++ cs) rest s u := by
  obtain @⟨i, _, _, few, front, unsunk⟩ := h
  obtain @⟨j, items, trace, few', front', unsunk'⟩ := g
  have both := Reads.intro (s := s) (items := items) (trace := trace) (bs := bs ++ cs) (rest := rest)
    (Nat.add_le_add few few') (by rw [front, List.append_assoc]) (by simpa using unsunk'.trans (by simpa using unsunk))
  rw [List.length_append, ← consume_consume, ← List.drop_drop] at both
  rw [consume_eq bs.length] at both ⊢
  exact both

theorem Reads.queue {n m : Nat} {bs rest : List Byte} {s t : State} (h : Reads n bs rest s t)
    (hq : PlainQueue (n + m) s) : PlainQueue m t := by
  obtain ⟨few, front, -⟩ := h
  refine hq.after few (by simp) ?_
  simp [front]

section

variable {n : Nat} {bs rest : List Byte} {s t : State} (h : Reads n bs rest s t)
include h

theorem Reads.inbound : t.link.inbound = rest := by
  cases h
  simp

theorem Reads.params : t.params = s.params := by
  cases h
  simp

theorem Reads.cmd : t.cmd = s.cmd := by
  cases h
  simp

theorem Reads.yld : t.yld = s.yld := by
  cases h
  simp

theorem Reads.sinkReady : t.sinkReady = s.sinkReady := by
  cases h
  simp

theorem Reads.handCount : t.data.handCount = s.data.handCount := by
  cases h
  simp

theorem Reads.imgRem : t.data.imgRem = s.data.imgRem := by
  cases h
  simp

end

/-! ### The blocks and the sub-header -/

theorem bigBlocks_done {size : Nat} {s : State} (h : s.items = 0 ∨ size = 0) (n : Nat) :
    bigBlocks size (n + 1) s = some (true, s) := if_pos h

theorem bigBlocks_block {size : Nat} {s u : State} {bs : List Byte} (h : ¬(s.items = 0 ∨ size = 0))
    (hu : tRead size s = some (bs, u)) (hb : bs.length = size) (n : Nat) :
    bigBlocks size (n + 1) s = bigBlocks size n { consume size u with items := u.items - 1 } := by
  rw [bigBlocks, if_neg h, hu]
  simp only [Option.bind_eq_bind, Option.bind_some, hb, Nat.lt_irrefl, if_false]

/-- Without a block to read the loop is over, and there is no byte for it. -/
theorem bigBlocks_queued_none {size k : Nat} {s : State} (hk : s.items.toNat = k) (hz : s.items = 0 ∨ size = 0)
    {blocks rest : List Byte} (hin : s.link.inbound = blocks ++ rest) (hl : blocks.length = k * size) (n : Nat) :
    ∃ t, bigBlocks size (n + 1) s = some (true, t) ∧ Reads k blocks rest s t := by
  have none : blocks = [] := by
    refine List.length_eq_zero_iff.mp (hl.trans (Nat.mul_eq_zero.mpr (hz.imp_left fun done => ?_)))
    rw [← hk, done]
    rfl
  subst none
  exact ⟨s, bigBlocks_done hz n, by simpa [hin] using Reads.none k s⟩

/-- The block loop on a plain queue that has its blocks reads them all, and no more (44_execute_image.md R218, R219). -/
theorem bigBlocks_queued {size k m n : Nat} {s : State} (hk : s.items.toNat = k) (hn : k ≤ n)
    (hq : PlainQueue (k + m) s) {blocks rest : List Byte} (hin : s.link.inbound = blocks ++ rest)
    (hl : blocks.length = k * size) :
    ∃ t, bigBlocks size (n + 1) s = some (true, t) ∧ Reads k blocks rest s t := by
  induction k generalizing s n blocks with
  | zero => exact bigBlocks_queued_none hk (.inl (BitVec.eq_of_toNat_eq hk)) hin hl n
  | succ k ih =>
    by_cases hz : s.items = 0 ∨ size = 0
    · exact bigBlocks_queued_none hk hz hin hl n
    · obtain ⟨n, rfl⟩ := Nat.exists_eq_add_one_of_ne_zero (Nat.ne_zero_of_lt hn)
      have length : (blocks.take size).length = size := by
        rw [List.length_take, hl, Nat.min_eq_left (Nat.le_mul_of_pos_left size k.succ_pos)]
      have left : (blocks.drop size).length = k * size := by
        rw [List.length_drop, hl, Nat.succ_mul, Nat.add_sub_cancel]
      have front : s.link.inbound = blocks.take size ++ (blocks.drop size ++ rest) := by
        rw [hin, ← List.append_assoc, List.take_append_drop]
      have counted : (s.items - 1).toNat = k := by
        have one : (1 : Byte) ≤ s.items := by rw [BitVec.le_def, hk]; exact Nat.le_add_left 1 k
        rw [BitVec.toNat_sub_of_le one, hk]
        rfl
      have read := tRead_queued (n := k + m) (by rwa [Nat.add_right_comm]) front length
      have first := (Reads.one front length).withItems (s.items - 1)
      have queue := first.queue (m := k + m) (by rwa [Nat.add_comm k 1, Nat.add_assoc] at hq)
      obtain ⟨t, run, more⟩ := ih counted (Nat.le_of_succ_le_succ hn) queue first.inbound left
      refine ⟨t, (bigBlocks_block hz read length _).trans run, ?_⟩
      have both := first.trans more
      rwa [List.take_append_drop, Nat.add_comm] at both

/-- The state whose counts the sub-header sets (44_execute_image.md R216). -/
def countsTaken (body hand face : Byte) (s : State) : State :=
  { s with data.bodyCount := body, data.handCount := hand, data.faceCount := face }

/-- The decoder on a plain queue that has the sub-header and its blocks reads them, then the image if one was asked
for (44_execute_image.md R215 to R220). -/
theorem bigExec_queued {s : State} {body hand face reserved : Byte} {m : Nat}
    (hq : PlainQueue (1 + body.toNat + hand.toNat + m) s) {bodies hands rest : List Byte}
    (hb : bodies.length = body.toNat * s.params.bodyItemBytes)
    (hh : hands.length = hand.toNat * s.params.handItemBytes)
    (hin : s.link.inbound = [body, hand, face, reserved] ++ bodies ++ hands ++ rest) :
    ∃ t, Reads (1 + body.toNat + hand.toNat) ([body, hand, face, reserved] ++ bodies ++ hands) rest
        (countsTaken body hand face s) t ∧
      bigExec s = if s.cmd.imgreq then bigImage t else some (finish .ok t) := by
  rw [List.append_assoc, List.append_assoc] at hin
  rw [Nat.add_assoc, Nat.add_assoc] at hq
  have read := tRead_queued (k := execSubhdrLen) (by rwa [Nat.add_comm] at hq) hin rfl
  have subheader := (Reads.one (s := countsTaken body hand face s) (k := execSubhdrLen) hin rfl).withItems body
  generalize hv : consume execSubhdrLen (offQueue execSubhdrLen [body, hand, face, reserved]
    (bodies ++ (hands ++ rest)) (countsTaken body hand face s)) = v at subheader
  have start : bigExec s =
      (bigBlocks v.params.bodyItemBytes (v.link.answers.length + 1) { v with items := body }).bind bigBodies := by
    subst hv
    exact bigExec_four read
  have bodyQueue := subheader.queue (m := body.toNat + (hand.toNat + m)) (by exact ⟨hq.enough, hq.whole⟩)
  obtain ⟨t, bodiesRun, bodiesRead⟩ := bigBlocks_queued (size := v.params.bodyItemBytes)
    (n := v.link.answers.length) rfl ((Nat.le_add_right ..).trans bodyQueue.enough) bodyQueue
    subheader.inbound (by rw [show v.params = s.params from subheader.params]; exact hb)
  have counted : t.data.handCount = hand := bodiesRead.handCount.trans subheader.handCount
  have params : t.params = s.params := bodiesRead.params.trans subheader.params
  have upTo := (subheader.trans bodiesRead).withItems hand
  have handQueue := (bodiesRead.withItems hand).queue bodyQueue
  obtain ⟨u, handsRun, handsRead⟩ := bigBlocks_queued (size := t.params.handItemBytes)
    (n := t.link.answers.length) rfl ((Nat.le_add_right ..).trans handQueue.enough) handQueue
    upTo.inbound (by rw [params]; exact hh)
  refine ⟨u, upTo.trans handsRead, ?_⟩
  have asked : u.cmd.imgreq = s.cmd.imgreq := by
    rw [handsRead.cmd, upTo.cmd]
    rfl
  rw [start, bodiesRun, Option.bind_some, bigBodies]
  simp only [Bool.not_true, Bool.false_eq_true, if_false, counted]
  rw [handsRun, Option.bind_some, bigHands, asked]
  simp

/-! ### The drain -/

/-- `t` is `s` with the bytes `bs` of an image moved from its queue to the sink in at most `n` requests and counted,
`rest` left in the queue (44_execute_image.md R224, R230). -/
inductive Drains (n : Nat) (bs rest : List Byte) (s : State) : State → Prop where
  | intro {j : Nat} {left : Word32} {retry : BitVec 33} {trace : List Event} (few : j ≤ n)
      (front : s.link.inbound = bs ++ rest) (missing : left.toNat = s.data.imgRem.toNat - bs.length)
      (sunk : sinkOf trace = sinkOf s.trace ++ bs) :
      Drains n bs rest s (consume bs.length { s with
        data.imgRem := left
        retry := retry
        sink := s.sink ++ bs
        sinkReady := s.sinkReady - bs.length
        link := ⟨rest, s.link.outbound, s.link.answers.drop j⟩
        trace := trace })

theorem Drains.trans {n m : Nat} {bs cs rest : List Byte} {s t u : State} (h : Drains n bs (cs ++ rest) s t)
    (g : Drains m cs rest t u) : Drains (n + m) (bs ++ cs) rest s u := by
  obtain @⟨i, _, _, _, few, front, missing, sunk⟩ := h
  obtain @⟨j, left, retry, trace, few', front', missing', sunk'⟩ := g
  simp only [consume_data_imgRem, consume_trace] at missing' sunk'
  have both := Drains.intro (s := s) (left := left) (retry := retry) (trace := trace) (bs := bs ++ cs) (rest := rest)
    (Nat.add_le_add few few') (by rw [front, List.append_assoc])
    (by rw [missing', missing, List.length_append, Nat.sub_sub]) (by rw [sunk', sunk, List.append_assoc])
  rw [List.length_append, ← consume_consume, ← List.drop_drop, ← List.append_assoc, ← Nat.sub_sub] at both
  rw [consume_eq bs.length] at both ⊢
  exact both

theorem Drains.queue {n m : Nat} {bs rest : List Byte} {s t : State} (h : Drains n bs rest s t)
    (hq : PlainQueue (n + m) s) : PlainQueue m t := by
  obtain ⟨few, front, -, -⟩ := h
  refine hq.after few (by simp) ?_
  simp [front]

theorem Drains.mono {n m : Nat} {bs rest : List Byte} {s t : State} (h : Drains n bs rest s t) (le : n ≤ m) :
    Drains m bs rest s t := by
  obtain ⟨few, front, missing, sunk⟩ := h
  exact .intro (few.trans le) front missing sunk

theorem Drains.imgRem {n : Nat} {bs rest : List Byte} {s t : State} (h : Drains n bs rest s t) :
    t.data.imgRem.toNat = s.data.imgRem.toNat - bs.length := by
  obtain ⟨-, -, missing, -⟩ := h
  rw [consume_data_imgRem, missing]

section

variable {n : Nat} {bs rest : List Byte} {s t : State} (h : Drains n bs rest s t)
include h

theorem Drains.inbound : t.link.inbound = rest := by
  cases h
  simp

theorem Drains.params : t.params = s.params := by
  cases h
  simp

theorem Drains.yld : t.yld = s.yld := by
  cases h
  simp

theorem Drains.sinkReady : t.sinkReady = s.sinkReady - bs.length := by
  cases h
  simp

end

theorem Drains.none (s : State) : Drains 0 [] s.link.inbound s s := by
  have none := Drains.intro (bs := []) (s := s) (left := s.data.imgRem) (retry := s.retry) (trace := s.trace)
    (Nat.le_refl 0) rfl rfl (List.append_nil _).symm
  rwa [List.length_nil, consume_zero, List.append_nil] at none

/-- The drain starts `RETRY` anew (44_execute_image.md R222). -/
theorem Drains.ofRetry {n : Nat} {bs rest : List Byte} {s t : State} {retry : BitVec 33}
    (h : Drains n bs rest { s with retry := retry } t) : Drains n bs rest s t := by
  obtain ⟨few, front, missing, sunk⟩ := h
  exact .intro (s := s) few front missing sunk

/-- A chunk of the drain in the program, once the sink has it. -/
theorem bigStream_chunk {n a : Nat} {s v w : State} {bs : List Byte} (hy : s.yld.req = false)
    (hv : tAvail s = some (a, v)) (ha : 0 < a) (hw : tRead (chunkSize v.params v.data.imgRem a) v = some (bs, w))
    (hb : 0 < bs.length) (ready : bs.length ≤ w.sinkReady) :
    let x := chunkTaken bs.length (sinkTakes bs w)
    bigStream (n + 1) s = if x.data.imgRem = 0 then some (finish .ok x) else bigStream n x := by
  simp only [bigStream, resume_free hy, Option.bind_eq_bind, Option.bind_some, hv, gt_iff_lt, ha, if_true, hw, hb,
    sinkWrite_ready ready]

/-- One turn of the drain on a plain queue that has the bytes outstanding: a chunk of at least one of them. -/
theorem bigStream_queued_chunk {m n : Nat} {s : State} (hy : s.yld.req = false) (hc : 1 ≤ s.params.chunkMax)
    (hq : PlainQueue (2 + m) s) {image rest : List Byte} (hrem : s.data.imgRem.toNat = image.length)
    (hne : image ≠ []) (hs : image.length ≤ s.sinkReady) (hin : s.link.inbound = image ++ rest) :
    ∃ bs more x, image = bs ++ more ∧ bs ≠ [] ∧ Drains 2 bs (more ++ rest) s x ∧
      bigStream (n + 1) s = if x.data.imgRem = 0 then some (finish .ok x) else bigStream n x := by
  have queue : PlainQueue (1 + m + 1) s := by rwa [show 2 + m = 1 + m + 1 by omega] at hq
  have poll := tAvail_queued queue
  have polledQueue : PlainQueue (m + 1) (polledAll s) :=
    PlainQueue.after (n := 1) (by rwa [Nat.add_assoc] at queue) (Nat.le_refl 1) rfl (Nat.le_refl _)
  have found : 0 < s.link.inbound.length := by
    rw [hin, List.length_append]
    exact Nat.add_pos_left (List.length_pos_of_ne_nil hne) _
  have size : chunkSize s.params s.data.imgRem s.link.inbound.length = min s.params.chunkMax image.length := by
    rw [chunkSize, hrem, hin, List.length_append, Nat.min_eq_left (Nat.le_add_right ..)]
  have pos : 0 < image.length := List.length_pos_of_ne_nil hne
  have some_bytes : 0 < min s.params.chunkMax image.length := Nat.lt_min.mpr ⟨hc, pos⟩
  have fits : min s.params.chunkMax image.length ≤ image.length := Nat.min_le_right ..
  generalize min s.params.chunkMax image.length = k at size some_bytes fits
  have length : (image.take k).length = k := List.length_take_of_le fits
  have front : s.link.inbound = image.take k ++ (image.drop k ++ rest) := by
    rw [← List.append_assoc, List.take_append_drop, hin]
  have read : tRead (chunkSize (polledAll s).params (polledAll s).data.imgRem s.link.inbound.length) (polledAll s) =
      some (image.take k, offQueue k (image.take k) (image.drop k ++ rest) (polledAll s)) := by
    rw [show chunkSize (polledAll s).params (polledAll s).data.imgRem s.link.inbound.length = k from size]
    exact tRead_queued polledQueue front length
  have chunk := bigStream_chunk (n := n) hy poll found read (by rwa [length])
    (by rw [length]; exact fits.trans hs)
  refine ⟨image.take k, image.drop k, _, (List.take_append_drop ..).symm, ?_, ?_, chunk⟩
  · exact List.ne_nil_of_length_pos (by rwa [length])
  · have missing : (s.data.imgRem - BitVec.ofNat 32 (image.take k).length).toNat =
        s.data.imgRem.toNat - (image.take k).length := sub_ofNat_toNat (by rwa [length, hrem])
    have drains := Drains.intro (retry := if s.params.imgRetryResetOnData then 0 else s.retry)
      (trace := s.trace ++ [.polled s.link.inbound.length] ++ [.read k (image.take k)] ++ [.sank (image.take k)])
      (Nat.le_refl 2) front missing (by simp [sinkOf_append, sinkOf])
    rw [← List.drop_drop (i := 1) (j := 1)] at drains
    rw [chunkTaken_eq]
    exact drains

/-- The drain on a plain queue that has the whole image, and a sink ready for it, hands all of it to the sink
(44_execute_image.md R224, R225). -/
theorem bigStream_queued {m n : Nat} {s : State} (hy : s.yld.req = false) (hc : 1 ≤ s.params.chunkMax)
    {image rest : List Byte} (hn : image.length ≤ n) (hq : PlainQueue (2 * image.length + m) s)
    (hrem : s.data.imgRem.toNat = image.length) (hne : image ≠ []) (hs : image.length ≤ s.sinkReady)
    (hin : s.link.inbound = image ++ rest) :
    ∃ t, bigStream n s = some (finish .ok t) ∧ Drains (2 * image.length) image rest s t := by
  induction n generalizing s image with
  | zero => exact absurd (List.length_eq_zero_iff.mp (Nat.le_zero.mp hn)) hne
  | succ n ih =>
    have queue : PlainQueue (2 + (2 * image.length - 2 + m)) s := by
      have pos := List.length_pos_of_ne_nil hne
      rwa [show 2 + (2 * image.length - 2 + m) = 2 * image.length + m by omega]
    obtain ⟨bs, more, x, rfl, some_bytes, drains, turn⟩ :=
      bigStream_queued_chunk (n := n) hy hc queue hrem hne hs hin
    have pos := List.length_pos_of_ne_nil some_bytes
    rw [List.length_append] at hn hrem hs
    have left : x.data.imgRem.toNat = more.length := by rw [drains.imgRem, hrem, Nat.add_sub_cancel_left]
    by_cases done : more = []
    · subst done
      rw [if_pos (BitVec.eq_of_toNat_eq left)] at turn
      rw [List.append_nil]
      exact ⟨x, turn, drains.mono (by omega)⟩
    · have some_left : x.data.imgRem ≠ 0 := by
        intro none
        rw [none] at left
        exact done (List.length_eq_zero_iff.mp left.symm)
      rw [if_neg some_left] at turn
      have after := drains.queue queue
      have moreQueue : PlainQueue (2 * more.length + m) x := by
        have enough := after.enough
        rw [List.length_append] at enough
        exact ⟨by omega, after.whole⟩
      have ready : more.length ≤ x.sinkReady := by rw [drains.sinkReady]; omega
      obtain ⟨t, run, rest_drains⟩ := ih (by rwa [drains.yld]) (by rwa [drains.params]) (by omega) moreQueue left done
        ready drains.inbound
      exact ⟨t, turn.trans run, (drains.trans rest_drains).mono (by rw [List.length_append]; omega)⟩

/-- The image on a plain queue that has its dimensions and all of it, with a sink ready for it (44_execute_image.md R222
to R225). -/
theorem bigImage_queued {s : State} (hy : s.yld.req = false) (hc : 1 ≤ s.params.chunkMax)
    {image rest : List Byte} (hq : PlainQueue (1 + 2 * image.length) s) {w0 w1 h0 h1 : Byte}
    (hl : image.length = (b2i w0 w1).toNat * (b2i h0 h1).toNat) (hs : image.length ≤ s.sinkReady)
    (hin : s.link.inbound = [w0, w1, h0, h1] ++ (image ++ rest)) :
    ∃ u t, bigImage s = some (finish .ok t) ∧
      Reads 1 [w0, w1, h0, h1] (image ++ rest) (dimensionsSet (b2i w0 w1) (b2i h0 h1) s) u ∧
      Drains (2 * image.length) image rest u t := by
  have read := tRead_queued (k := imgDimLen) (by rwa [Nat.add_comm] at hq) hin rfl
  have dims := Reads.one (s := dimensionsSet (b2i w0 w1) (b2i h0 h1) s) (k := imgDimLen) hin rfl
  have start : bigImage s = bigDrain (consume imgDimLen (offQueue imgDimLen [w0, w1, h0, h1] (image ++ rest)
      (dimensionsSet (b2i w0 w1) (b2i h0 h1) s))) :=
    (bigImage_four read).trans (congrArg bigDrain (dimensionsTaken_eq ..))
  generalize consume imgDimLen (offQueue imgDimLen [w0, w1, h0, h1] (image ++ rest)
    (dimensionsSet (b2i w0 w1) (b2i h0 h1) s)) = u at start dims
  have left : u.data.imgRem.toNat = image.length := by rw [dims.imgRem, hl, ← mul16_toNat]; rfl
  rw [bigDrain] at start
  by_cases done : image = []
  · subst done
    rw [if_pos (BitVec.eq_of_toNat_eq left)] at start
    have drains := Drains.none u
    rw [dims.inbound] at drains
    exact ⟨u, u, start, dims, drains⟩
  · have some_left : u.data.imgRem ≠ 0 := by
      intro none
      rw [none] at left
      exact done (List.length_eq_zero_iff.mp left.symm)
    rw [if_neg some_left] at start
    have queue := dims.queue (m := 2 * image.length) ⟨hq.enough, hq.whole⟩
    have yld : u.yld = s.yld := dims.yld
    have params : u.params = s.params := dims.params
    have fuel : image.length ≤ u.link.answers.length + 1 := by
      have enough := queue.enough
      omega
    obtain ⟨t, run, drains⟩ := bigStream_queued (m := 0) (s := { u with retry := 0 }) (by rwa [yld])
      (by rwa [params]) fuel ⟨queue.enough, queue.whole⟩ left done
      (hs.trans_eq dims.sinkReady.symm) dims.inbound
    exact ⟨u, t, start.trans run, dims, drains.ofRetry⟩

/-! ### The end of an execution -/

/-- An execution that ended `OK` after `k` bytes (42_executor.md R160): its data stay. -/
def execEnd (k : Nat) (s : State) : State :=
  { s with
    phase := .idle
    data.budgetLeft := budgetAfter k s.data.budgetLeft
    res := ⟨true, .ok, true, freeDevStatus s.freeIdx, s.res.imgPresent, s.res.imgIncomplete,
      s.res.overBudget || decide (s.data.budgetLeft.toNat < k)⟩
    freeIdx := s.freeIdx + 1 }

theorem finish_ok_exec {s : State} (hd : s.cmd.dec = .exec) (k : Nat) : finish .ok (consume k s) = execEnd k s := by
  rw [consume_eq]
  simp [finish, dataValidOf, hd, execEnd]

theorem execEnd_overBudget (k : Nat) (s : State) :
    (execEnd k s).res.overBudget = true ↔ s.res.overBudget = true ∨ s.data.budgetLeft.toNat < k := by
  simp [execEnd]

theorem execEnd_typedResult {s : State} (hd : s.cmd.dec = .exec) (k : Nat) :
    (execEnd k s).typedResult = some (.execution (executionView s)) := by
  simp only [State.typedResult, execEnd, hd]
  rfl

/-! ### The decoder to its end -/

/-- The decoder without an image: the counts are set, the sub-header and the blocks read and counted. -/
theorem bigExec_withoutImage {s : State} (hd : s.cmd.dec = .exec) (hi : s.cmd.imgreq = false)
    {body hand face reserved : Byte} (hq : PlainQueue (1 + body.toNat + hand.toNat) s) {bodies hands rest : List Byte}
    (hb : bodies.length = body.toNat * s.params.bodyItemBytes)
    (hh : hands.length = hand.toNat * s.params.handItemBytes)
    (hin : s.link.inbound = [body, hand, face, reserved] ++ bodies ++ hands ++ rest) :
    ∃ items answers trace, bigExec s = some (execEnd (4 + bodies.length + hands.length)
      { countsTaken body hand face s with
        items := items, link := ⟨rest, s.link.outbound, answers⟩, trace := trace }) := by
  obtain ⟨t, reads, run⟩ := bigExec_queued (m := 0) hq hb hh hin
  rw [hi] at run
  obtain @⟨j, items, trace, -, -, -⟩ := reads
  refine ⟨items, s.link.answers.drop j, trace, run.trans ?_⟩
  rw [← finish_ok_exec (by exact hd)]
  simp only [List.length_append]
  rfl

/-- The decoder with an image that is all there: it goes to the sink, and every byte is counted. -/
theorem bigExec_withImage {s : State} (hd : s.cmd.dec = .exec) (hi : s.cmd.imgreq = true)
    (hy : s.yld.req = false) (hc : 1 ≤ s.params.chunkMax) {body hand face reserved w0 w1 h0 h1 : Byte}
    {bodies hands image rest : List Byte} (hq : PlainQueue (2 + body.toNat + hand.toNat + 2 * image.length) s)
    (hs : image.length ≤ s.sinkReady)
    (hb : bodies.length = body.toNat * s.params.bodyItemBytes)
    (hh : hands.length = hand.toNat * s.params.handItemBytes)
    (hl : image.length = (b2i w0 w1).toNat * (b2i h0 h1).toNat)
    (hin : s.link.inbound =
      [body, hand, face, reserved] ++ bodies ++ hands ++ [w0, w1, h0, h1] ++ image ++ rest) :
    ∃ items retry answers trace, sinkOf trace = sinkOf s.trace ++ image ∧
      bigExec s = some (execEnd (8 + bodies.length + hands.length + image.length)
        { dimensionsSet (b2i w0 w1) (b2i h0 h1) (countsTaken body hand face s) with
          data.imgRem := 0
          items := items
          retry := retry
          sink := s.sink ++ image
          sinkReady := s.sinkReady - image.length
          link := ⟨rest, s.link.outbound, answers⟩
          trace := trace }) := by
  rw [List.append_assoc, List.append_assoc] at hin
  have hq' : PlainQueue (1 + body.toNat + hand.toNat + (1 + 2 * image.length)) s := by
    rwa [show 1 + body.toNat + hand.toNat + (1 + 2 * image.length) =
      2 + body.toNat + hand.toNat + 2 * image.length by omega]
  obtain ⟨t, reads, run⟩ := bigExec_queued hq' hb hh hin
  rw [hi, if_pos rfl] at run
  have yld : t.yld = s.yld := reads.yld
  have params : t.params = s.params := reads.params
  obtain ⟨u, v, image_run, dims, drains⟩ := bigImage_queued (by rwa [yld]) (by rwa [params])
    (reads.queue ⟨hq'.enough, hq'.whole⟩) hl (hs.trans_eq reads.sinkReady.symm) reads.inbound
  have imgRem : v.data.imgRem.toNat = 0 := by
    rw [drains.imgRem, dims.imgRem, hl, ← mul16_toNat]
    exact Nat.sub_self _
  obtain @⟨i, _, _, -, -, unsunk⟩ := reads
  obtain @⟨j, items, _, -, -, unsunk'⟩ := dims
  obtain @⟨k, left, retry, trace, -, -, -, sunk⟩ := drains
  rw [consume_data_imgRem] at imgRem
  have none_left : left = 0 := BitVec.eq_of_toNat_eq imgRem
  subst none_left
  refine ⟨items, retry, (((s.link.answers.drop i).drop j).drop k), trace, ?_, run.trans (image_run.trans ?_)⟩
  · rw [sunk, consume_trace, unsunk']
    exact congrArg (· ++ image) ((congrArg sinkOf (consume_trace ..)).trans unsunk)
  · have total : 8 + bodies.length + hands.length + image.length =
        ([body, hand, face, reserved] ++ bodies ++ hands).length + [w0, w1, h0, h1].length + image.length := by
      simp only [List.length_append, List.length_cons, List.length_nil]
      omega
    rw [← finish_ok_exec (by exact hd), total, ← consume_consume, ← consume_consume]
    generalize ([body, hand, face, reserved] ++ bodies ++ hands).length = before
    simp only [consume_eq, dimensionsSet]
    rfl

end Sys2Proof.Machine
end

section
/-!
PROOFS. An execution from its start to its end (44_execute_image.md R215 to R230): the row `DEC_EXEC` and the command
`EXECUTE` on a plain queue, with an image and without.
-/

namespace Sys2Proof.Machine

/-! ### The row `DEC_EXEC` -/

theorem dispatch_exec {s : State} (h : s.cmd.dec = .exec) : dispatch s = s.enter .exSub := by
  rw [dispatch, h]
  rfl

/-- A run to IDLE takes the turn of a command in flight. -/
theorem runUnit_inFlight {s t : State} (busy : s.phase ≠ .idle) (turn : unitTurn s = .moves t) (fuel : Nat) :
    runUnit (fun u => u.phase == .idle) (fuel + 1) s = runUnit (fun u => u.phase == .idle) fuel t := by
  simp [runUnit, busy, turn]

theorem runUnit_idle {s : State} (idle : s.phase = .idle) (fuel : Nat) :
    runUnit (fun u => u.phase == .idle) fuel s = .next s := by
  cases fuel <;> simp [runUnit, idle]

/-- A big-step program that ends gives the end of the run to IDLE, whatever is on the port. -/
theorem Follows.run_idle {p : Phase} {s t : State} (h : Follows p s (some t)) {fuel : Nat} (hf : workIn p s ≤ fuel) :
    runUnit (fun u => u.phase == .idle) fuel (s.enter p) = .next t := by
  generalize ho : some t = o at h
  induction h generalizing fuel with
  | waits => cases ho
  | @ends p s u busy turn idle =>
    cases ho
    obtain ⟨n, rfl⟩ := Nat.exists_eq_add_one_of_ne_zero (Nat.ne_zero_of_lt ((turnOf_work turn).trans_le hf))
    rw [runUnit_inFlight busy ((unitTurn_enter p s).trans turn), runUnit_idle idle]
  | @goesOn p q s u o busy turn next ih =>
    have less := (turnOf_work turn).trans_le hf
    obtain ⟨n, rfl⟩ := Nat.exists_eq_add_one_of_ne_zero (Nat.ne_zero_of_lt less)
    rw [runUnit_inFlight busy ((unitTurn_enter p s).trans turn)]
    exact ih (Nat.le_of_lt_succ less) ho

/-- The budget at its start (44_execute_image.md R230). -/
def budgetStarted (s : State) : State := { s with data.budgetLeft := s.hdr.len }

/-- `DEC_EXEC` in `C_DEC` runs R173's program of the decoder, from the start of its budget. -/
theorem exec_decExec {s t : State} (hd : s.cmd.dec = .exec)
    (h : bigExec (budgetStarted s) = some t) : exec .decExec s = .next t := by
  have entered : enterDecoder s = (budgetStarted s).enter .exSub := dispatch_exec hd
  have follows := bigExec_follows (budgetStarted s)
  rw [h] at follows
  refine (invokeDecoder_chosen hd).trans ?_
  rw [entered]
  exact follows.run_idle (workIn_le_turnBudget ((budgetStarted s).enter .exSub))

/-- Settles O37: the decoder's program without an image, in an invocation. -/
theorem execDecoderCompletes : Obligations.ExecDecoderCompletes := by
  refine ⟨fun s other => invokeDecoder_other other, ?_⟩
  intro s body hand face reserved bodies hands rest hd hi hq hb hh hin
  obtain ⟨items, answers, trace, run⟩ := bigExec_withoutImage (s := budgetStarted s) hd hi
    ⟨hq.enough, hq.whole⟩ hb hh hin
  exact ⟨_, exec_decExec hd run, rfl, rfl, rfl, rfl, rfl, rfl, rfl, rfl, rfl, budgetAfter_toNat ..,
    execEnd_overBudget .., rfl, rfl, rfl, rfl, rfl, rfl, rfl, rfl, rfl, rfl, rfl, rfl, rfl, rfl, ⟨rfl, rfl, rfl, rfl, rfl⟩⟩

/-- Settles O60: the decoder's program with an image that is all there, in an invocation. -/
theorem execDecoderWithImage : Obligations.ExecDecoderWithImage := by
  intro s body hand face reserved w0 w1 h0 h1 bodies hands image rest hd hi hy hc hq hs hb hh hl hin
  obtain ⟨items, retry, answers, trace, -, run⟩ := bigExec_withImage (s := budgetStarted s)
    hd hi hy hc ⟨hq.enough, hq.whole⟩ hs hb hh hl hin
  exact ⟨_, exec_decExec hd run, rfl, rfl, rfl, rfl, rfl, rfl, rfl, rfl, rfl, rfl, rfl, rfl, rfl, budgetAfter_toNat ..,
    execEnd_overBudget .., rfl, rfl, rfl, rfl, rfl, rfl, rfl, rfl, rfl, ⟨rfl, rfl, rfl, rfl, rfl⟩⟩

/-! ### The command `EXECUTE` -/

/-- `EXECUTE` of a ready host, the valid header on a plain queue, as dispatch meets it. -/
def executeStart (len : Word16) (payload : List Byte) (imgreq : Bool) (length : Word32) (queue : List Byte)
    (s : State) : State :=
  headerTaken .execute len payload imgreq length queue (s.link.answers.drop 3) s

/-- `EXECUTE` of a ready host, a valid header first on a plain queue, runs R173's program of the decoder. -/
theorem exec_execute {s t : State} (hs : HostReady s) {n : Nat} (hq : PlainQueue (3 + n) s) {len : Word16}
    (hl : len.toNat ≤ 28) {payload : List Byte} (hp : payload.length = len.toNat) {length : Word32}
    {queue : List Byte} (hin : s.link.inbound = encodeHeader s.params.sync 0 length ++ queue) {imgreq : Bool}
    (h : bigExec (executeStart len payload imgreq length queue s) = some t) :
    exec (.execute len payload imgreq) s = .next t := by
  obtain ⟨sent, polled, read, rest, ha⟩ := PlainQueue.three (s := s) ⟨(Nat.le_add_right ..).trans hq.enough, hq.whole⟩
  have start : headerTaken .execute len payload imgreq length queue rest s =
      executeStart len payload imgreq length queue s := by
    rw [executeStart, ha]
    rfl
  refine (exec_command_reaches_dispatch hs hq hl hp ha hin .execute imgreq).trans ?_
  rw [if_pos rfl, start, dispatch_exec rfl]
  have work : workIn .exSub (executeStart len payload imgreq length queue s) ≤ rest.length + 4 := by
    rw [← start]
    have offers : (headerTaken .execute len payload imgreq length queue rest s).offers = [] := hs.free
    have answers : (headerTaken .execute len payload imgreq length queue rest s).link.answers = rest := rfl
    simp [workIn, offers, answers, Phase.freeMoves]
  have free : (executeStart len payload imgreq length queue s).offers = [] := hs.free
  exact ((bigExec_follows (executeStart len payload imgreq length queue s)).run free work).1 t h

theorem PlainQueue.executeStart {s : State} {n : Nat} (hq : PlainQueue (3 + n) s) {header queue : List Byte}
    (hin : s.link.inbound = header ++ queue) (len : Word16) (payload : List Byte) (imgreq : Bool) (length : Word32) :
    PlainQueue n (executeStart len payload imgreq length queue s) := by
  refine hq.after (Nat.le_refl 3) rfl ?_
  rw [hin, List.length_append]
  exact Nat.le_add_left ..

/-- Settles O40: the decoder's program without an image, after a valid header. -/
theorem executeWithoutImage : Obligations.ExecuteWithoutImage := by
  intro s len payload length body hand face reserved bodies hands rest hs hq hl hp hb hh hin
  have queued : PlainQueue (3 + (1 + body.toNat + hand.toNat)) s := by
    rwa [show 3 + (1 + body.toNat + hand.toNat) = 4 + body.toNat + hand.toNat by omega]
  have front : s.link.inbound = encodeHeader s.params.sync 0 length ++
      ([body, hand, face, reserved] ++ bodies ++ hands ++ rest) := by rw [hin]; simp only [List.append_assoc]
  obtain ⟨items, answers, trace, run⟩ := bigExec_withoutImage (s := executeStart len payload false length _ s) rfl rfl
    (queued.executeStart front len payload false length) hb hh rfl
  have ended := exec_execute hs queued hl hp front run
  have latched := accepted_latched hl hp .execute false s
  refine ⟨_, ended, rfl, rfl, rfl, execEnd_typedResult rfl _, rfl, rfl, budgetAfter_toNat .., ?_,
    latched.of_eq rfl rfl, rfl, rfl, rfl, rfl, rfl, rfl, rfl, rfl, ⟨rfl, rfl, rfl, rfl, rfl⟩⟩
  exact (execEnd_overBudget ..).trans (or_iff_right nofun)

/-- Settles O41: the decoder's program with an image that is all there, after a valid header. -/
theorem executeWithImage : Obligations.ExecuteWithImage := by
  intro s len payload length body hand face reserved w0 w1 h0 h1 bodies hands image rest hs hq ready hc hl hp hb hh
    himage hin
  have queued : PlainQueue (3 + (2 + body.toNat + hand.toNat + 2 * image.length)) s := by
    rwa [show 3 + (2 + body.toNat + hand.toNat + 2 * image.length) =
      5 + body.toNat + hand.toNat + 2 * image.length by omega]
  have front : s.link.inbound = encodeHeader s.params.sync 0 length ++
      ([body, hand, face, reserved] ++ bodies ++ hands ++ [w0, w1, h0, h1] ++ image ++ rest) := by
    rw [hin]
    simp only [List.append_assoc]
  obtain ⟨items, retry, answers, trace, sunk, run⟩ := bigExec_withImage
    (s := executeStart len payload true length _ s) rfl rfl hs.awake hc
    (queued.executeStart front len payload true length) ready hb hh himage rfl
  have ended := exec_execute hs queued hl hp front run
  have latched := accepted_latched hl hp .execute true s
  have image_sunk : sinkOf trace = image := sunk
  refine ⟨_, ended, rfl, rfl, rfl, (execEnd_typedResult rfl _).trans ?_, rfl, rfl, rfl, budgetAfter_toNat .., ?_,
    latched.of_eq rfl rfl, rfl, rfl, rfl, rfl, rfl, rfl, rfl, ⟨rfl, rfl, rfl, rfl, rfl⟩⟩
  · rw [← image_sunk]
    rfl
  · exact (execEnd_overBudget ..).trans (or_iff_right nofun)

end Sys2Proof.Machine
end

section
/-!
PROOFS. The byte account (60_exceptions.md R252; 30_encoding.md R103; 20_memory.md R81; 44_execute_image.md R225): what
a trace has consumed and sunk, how a command's ends meet the account, and that every step keeps `ByteInv`.
-/

namespace Sys2Proof.Machine

/-! ### A trace until the stream: whole reads, and nothing sunk -/

/-- Every read of the trace was whole, `count` bytes came in all, and none went to the sink. -/
structure WholeReads (trace : List Event) (count : Nat) : Prop where
  length : (readIn trace).length = count
  whole : ∀ n bs, Event.read n bs ∈ trace → bs.length = n
  unsunk : sinkOf trace = []

theorem wholeReads_nil : WholeReads [] 0 := ⟨rfl, nofun, rfl⟩

theorem wholeReads_wrote (frame : List Byte) (count : Nat) : WholeReads [.wrote frame count] 0 := ⟨rfl, nofun, rfl⟩

theorem wholeReads_polled (ready : Nat) : WholeReads [.polled ready] 0 := ⟨rfl, nofun, rfl⟩

theorem wholeReads_yielded (ms : Word32) : WholeReads [.yielded ms] 0 := ⟨rfl, nofun, rfl⟩

theorem wholeReads_read {n : Nat} {bs : List Byte} (h : bs.length = n) : WholeReads [.read n bs] n := by
  refine ⟨by simpa [readIn] using h, fun m cs hm => ?_, rfl⟩
  cases List.mem_singleton.mp hm
  exact h

theorem WholeReads.append {a b : List Event} {j k : Nat} (h : WholeReads a j) (g : WholeReads b k) :
    WholeReads (a ++ b) (j + k) where
  length := by rw [readIn_append, List.length_append, h.length, g.length]
  whole n bs hm := (List.mem_append.mp hm).elim (h.whole n bs) (g.whole n bs)
  unsunk := by rw [sinkOf_append, h.unsunk, g.unsunk, List.append_nil]

/-! ### A trace in the stream: what is read goes on to the sink -/

/-- Of the bytes read all but the first `head` are those sunk, and with `rem` more they are `total` (R81, R225). -/
structure Streamed (trace : List Event) (head rem total : Nat) : Prop where
  sunk : ∃ front, front.length = head ∧ readIn trace = front ++ sinkOf trace
  missing : (sinkOf trace).length + rem = total

theorem WholeReads.streamed {trace : List Event} {k : Nat} (h : WholeReads trace k) (total : Nat) :
    Streamed trace k total total where
  sunk := ⟨readIn trace, h.length, by rw [h.unsunk, List.append_nil]⟩
  missing := by rw [h.unsunk, List.length_nil, Nat.zero_add]

/-- Requests that sink what they read, no more than is missing. -/
theorem Streamed.append {trace more : List Event} {head rem total : Nat} (h : Streamed trace head rem total)
    (sunk : sinkOf more = readIn more) (fits : (readIn more).length ≤ rem) :
    Streamed (trace ++ more) head (rem - (readIn more).length) total where
  sunk := by
    obtain ⟨front, hf, he⟩ := h.sunk
    exact ⟨front, hf, by rw [readIn_append, sinkOf_append, he, sunk, List.append_assoc]⟩
  missing := by
    have before := h.missing
    rw [sinkOf_append, List.length_append, sunk]
    omega

theorem Streamed.length {trace : List Event} {head rem total : Nat} (h : Streamed trace head rem total) :
    (readIn trace).length = head + (sinkOf trace).length := by
  obtain ⟨front, hf, he⟩ := h.sunk
  rw [he, List.length_append, hf]

theorem Streamed.drop {trace : List Event} {head rem total : Nat} (h : Streamed trace head rem total) :
    sinkOf trace = (readIn trace).drop head := by
  obtain ⟨front, rfl, he⟩ := h.sunk
  rw [he, List.drop_left]

/-! ### The requests, by what they add to the trace -/

theorem tRead_appends {s u : State} {n : Nat} {bs : List Byte} (h : tRead n s = some (bs, u)) :
    ∃ link, u = { s with link := link, trace := s.trace ++ [.read n bs] } := by
  obtain ⟨_, _, -, -, rfl⟩ := tRead_some h
  exact ⟨_, rfl⟩

theorem poll_appends {s u v : State} {a : Nat} (hu : resume s = some u) (hv : tAvail u = some (a, v)) :
    ∃ link yld, v = { s with link := link, yld := yld, trace := s.trace ++ [.polled a] } := by
  obtain ⟨y, rfl⟩ := resume_changes_yield_only hu
  obtain ⟨_, _, -, -, rfl⟩ := tAvail_some hv
  exact ⟨_, _, rfl⟩

/-! ### A command in flight -/

/-- The environment's moves reach nothing that `ByteInv` counts. -/
theorem ByteInv.frame {s : State} (h : ByteInv s) {agenda : List Move}
    (external : ∀ m ∈ agenda, m.external = true) {cfg : ConfigRegs} {cfgSel : BitVec 2} {offers : List Command}
    {link : LinkState} {sink : List Byte} {sinkReady acks freeIdx : Nat} :
    ByteInv { s with
      cfg := cfg, cfgSel := cfgSel, offers := offers, link := link, sink := sink, sinkReady := sinkReady,
      yld.acks := acks, agenda := agenda, freeIdx := freeIdx } :=
  { h with control := h.control.frame external }

/-- What the account says before the stream. -/
theorem ByteInv.wholeReads {s : State} (h : ByteInv s) {p : Phase} (hp : s.phase = p) (hb : p ≠ .idle)
    (hi : p ≠ .imgStream) : WholeReads s.trace (consumedInPhase (s.enter p)) := by
  subst hp
  exact ⟨h.inFlight hb, h.whole hb hi, h.noSink hb hi⟩

theorem WholeReads.byteInv {s : State} (reads : WholeReads s.trace (consumedInPhase s)) (control : ControlInv s)
    (hb : s.phase ≠ .idle) (hi : s.phase ≠ .imgStream)
    (bodies : s.phase = .exBody → s.items.toNat ≤ s.data.bodyCount.toNat)
    (hands : s.phase = .exHand → s.items.toNat ≤ s.data.handCount.toNat) : ByteInv s where
  control := control
  bodies := bodies
  hands := hands
  inFlight := fun _ => reads.length
  atEnd := control.unposted hb
  whole := fun _ _ => reads.whole
  short := control.unposted hb
  noSink := fun _ _ => reads.unsunk
  image := fun _ hs => hs.elim (fun hp => absurd hp hi) fun hv => control.unposted hb hv.1

/-- What the account says of an image, in the stream and after its end. -/
def ImageAccount (s : State) : Prop :=
  Streamed s.trace (execPrefixLen s + imgDimLen) s.data.imgRem.toNat (s.data.imgW.toNat * s.data.imgH.toNat)

theorem ByteInv.imageAccount {s : State} (h : ByteInv s) (hp : s.phase = .imgStream) : ImageAccount s := by
  obtain ⟨-, -, present⟩ := h.control.streaming hp
  obtain ⟨sunk, missing⟩ := h.image present (.inl hp)
  have count : (readIn s.trace).length = execPrefixLen s + imgDimLen + (sinkOf s.trace).length := by
    rw [h.inFlight (hp ▸ nofun)]
    simp only [consumedInPhase, hp]
  refine ⟨⟨(readIn s.trace).take (execPrefixLen s + imgDimLen), ?_, ?_⟩, missing⟩
  · rw [List.length_take, count]
    omega
  · rw [sunk, List.take_append_drop]

theorem ImageAccount.byteInv {s : State} (account : ImageAccount s) (control : ControlInv s)
    (hp : s.phase = .imgStream) : ByteInv s where
  control := control
  bodies := fun h => absurd (hp.symm.trans h) nofun
  hands := fun h => absurd (hp.symm.trans h) nofun
  inFlight := fun _ => by
    rw [account.length]
    simp only [consumedInPhase, hp]
  atEnd := control.unposted (hp ▸ nofun)
  whole := fun _ hi => absurd hp hi
  short := control.unposted (hp ▸ nofun)
  noSink := fun _ hi => absurd hp hi
  image := fun _ _ => ⟨account.drop, account.missing⟩

/-! ### The ends of a command (60_exceptions.md R252) -/

/-- The trace ends with a short read, the first of its reads that was not whole. -/
def EndsShort (trace : List Event) : Prop :=
  ∃ before n bs, trace = before ++ [.read n bs] ∧ bs.length < n ∧ ∀ m cs, Event.read m cs ∈ before → cs.length = m

theorem byteInv_of_finish {s : State} {code : ResCode} (control : ControlInv (finish code s)) {low high : Nat}
    (ends : consumedAtEnd (finish code s) = (low, high))
    (within : low ≤ (readIn s.trace).length ∧ (readIn s.trace).length ≤ high)
    (short : code = .shortRead → EndsShort s.trace)
    (image : code = .ok → s.res.imgPresent = true → ImageAccount (finish code s)) : ByteInv (finish code s) where
  control := control
  bodies := nofun
  hands := nofun
  inFlight := fun hb => absurd rfl hb
  atEnd := fun _ => by rwa [ends]
  whole := fun hb => absurd rfl hb
  short := fun _ => short
  noSink := fun hb => absurd rfl hb
  image := fun present hs => hs.elim nofun fun ⟨_, ok⟩ =>
    have account := image ok present
    ⟨account.drop, account.missing⟩

/-- A failure other than a short read, whose count of bytes the code alone gives. -/
theorem WholeReads.byteInv_fail {s : State} {k : Nat} (reads : WholeReads s.trace k) {code : ResCode}
    (control : ControlInv (finish code s)) (ends : consumedAtEnd (finish code s) = (k, k)) (hs : code ≠ .shortRead)
    (ho : code ≠ .ok) : ByteInv (finish code s) :=
  byteInv_of_finish control ends ⟨reads.length.ge, reads.length.le⟩ (fun h => absurd h hs) fun h => absurd h ho

theorem consumedAtEnd_shortRead_shape {s : State} (hd : s.cmd.dec ≠ .exec) :
    consumedAtEnd (finish .shortRead s) = (rspHdrLen, rspHdrLen + shapeLen s.cmd.dec - 1) := by
  cases h : s.cmd.dec <;> simp_all [consumedAtEnd]

theorem consumedAtEnd_shortRead_exec {s : State} (hd : s.cmd.dec = .exec) :
    consumedAtEnd (finish .shortRead s) =
      (rspHdrLen, rspHdrLen + execSubhdrLen + 255 * s.params.bodyItemBytes + 255 * s.params.handItemBytes +
        (imgDimLen - 1)) := by
  simp [consumedAtEnd, hd]

theorem consumedAtEnd_ok_shape {s : State} (hd : s.cmd.dec ≠ .exec) :
    consumedAtEnd (finish .ok s) = (rspHdrLen + shapeLen s.cmd.dec, rspHdrLen + shapeLen s.cmd.dec) := by
  cases h : s.cmd.dec <;> simp_all [consumedAtEnd]

theorem finish_ok_exec_data {s : State} (hd : s.cmd.dec = .exec) : (finish .ok s).data = s.data := by
  simp [hd, dataValidOf]

theorem execPrefixLen_finish_ok {s : State} (hd : s.cmd.dec = .exec) :
    execPrefixLen (finish .ok s) = execPrefixLen s := by
  simp only [execPrefixLen, finish_ok_exec_data hd, finish_params]

/-- What an execution consumed at its end. -/
def execConsumed (s : State) : Nat :=
  execPrefixLen s + if s.res.imgPresent then imgDimLen + (sinkOf s.trace).length else 0

theorem consumedAtEnd_ok_exec {s : State} (hd : s.cmd.dec = .exec) :
    consumedAtEnd (finish .ok s) = (execConsumed s, execConsumed s) := by
  have code : (finish .ok s).res.code = .ok := rfl
  simp only [consumedAtEnd, code, finish_cmd, hd, execPrefixLen_finish_ok hd]
  rfl

/-- The one short read of a command, after reads that were whole. -/
theorem WholeReads.byteInv_shortRead {s u : State} {k n : Nat} {bs : List Byte} (reads : WholeReads s.trace k)
    (hu : tRead n s = some (bs, u)) (short : bs.length < n) (control : ControlInv (finish .shortRead u)) {high : Nat}
    (ends : consumedAtEnd (finish .shortRead s) = (rspHdrLen, high)) (header : rspHdrLen ≤ k)
    (most : k + n ≤ high + 1) : ByteInv (finish .shortRead u) := by
  obtain ⟨link, rfl⟩ := tRead_appends hu
  have count : (readIn (s.trace ++ [.read n bs])).length = k + bs.length := by
    simp [readIn_append, readIn, reads.length]
  refine byteInv_of_finish control ends ?_ (fun _ => ⟨s.trace, n, bs, rfl, short, reads.whole⟩) nofun
  change rspHdrLen ≤ (readIn (s.trace ++ [.read n bs])).length ∧ (readIn (s.trace ++ [.read n bs])).length ≤ high
  omega

/-- A short read of an execution, within the largest prefix and the dimensions. -/
theorem WholeReads.byteInv_shortRead_exec {s u : State} {k n : Nat} {bs : List Byte} (reads : WholeReads s.trace k)
    (hu : tRead n s = some (bs, u)) (short : bs.length < n) (control : ControlInv (finish .shortRead u))
    (hd : s.cmd.dec = .exec) (header : rspHdrLen ≤ k)
    (most : k + n ≤ rspHdrLen + execSubhdrLen + 255 * s.params.bodyItemBytes + 255 * s.params.handItemBytes +
      imgDimLen) : ByteInv (finish .shortRead u) :=
  reads.byteInv_shortRead hu short control (consumedAtEnd_shortRead_exec hd) header most

/-- The end of a command without a metadata block or an image to read. -/
theorem WholeReads.byteInv_ok_shape {s : State} (reads : WholeReads s.trace (rspHdrLen + shapeLen s.cmd.dec))
    (control : ControlInv (finish .ok s)) (hd : s.cmd.dec ≠ .exec) : ByteInv (finish .ok s) :=
  byteInv_of_finish control (consumedAtEnd_ok_shape hd) ⟨reads.length.ge, reads.length.le⟩ nofun fun _ present =>
    absurd (control.imagePresent present).1 hd

/-- The end of an execution whose image was not asked for (44_execute_image.md R220). -/
theorem WholeReads.byteInv_ok_exec {s : State} (reads : WholeReads s.trace (execPrefixLen s))
    (control : ControlInv (finish .ok s)) (hd : s.cmd.dec = .exec) (absent : s.res.imgPresent = false) :
    ByteInv (finish .ok s) := by
  have count : (readIn s.trace).length = execConsumed s := by simp [execConsumed, absent, reads.length]
  exact byteInv_of_finish control (consumedAtEnd_ok_exec hd) ⟨count.ge, count.le⟩ nofun fun _ present =>
    absurd (absent.symm.trans present) nofun

/-- The end of an execution with an image, whole or not (44_execute_image.md R225). -/
theorem ImageAccount.byteInv_ok {s : State} (account : ImageAccount s) (control : ControlInv (finish .ok s))
    (present : s.res.imgPresent = true) : ByteInv (finish .ok s) := by
  have hd : s.cmd.dec = .exec := (control.imagePresent present).1
  have count : (readIn s.trace).length = execConsumed s := by
    rw [account.length, execConsumed, if_pos present, Nat.add_assoc]
  refine byteInv_of_finish control (consumedAtEnd_ok_exec hd) ⟨count.ge, count.le⟩ nofun fun _ _ => ?_
  unfold ImageAccount
  rw [execPrefixLen_finish_ok hd, finish_ok_exec_data hd]
  exact account

/-! ### The turns up to the header -/

/-- The accept starts the account anew (log entry 24). -/
theorem idleTurn_byteInv {s t : State} (control : ControlInv t) (ht : idleTurn s = .moves t) : ByteInv t := by
  obtain ⟨c, rest, d, -, -, -, rfl⟩ := idleTurn_moves ht
  have reads : WholeReads (latchCommand d c { s with offers := rest }).trace 0 := wholeReads_nil
  unfold admitLength at control ⊢
  split at control
  · next hl =>
    rw [if_pos hl]
    exact reads.byteInv_fail control rfl nofun nofun
  · next hl =>
    rw [if_neg hl]
    exact WholeReads.byteInv reads control nofun nofun nofun nofun

theorem sendTurn_byteInv {s t : State} (h : ByteInv s) (control : ControlInv t) (hp : s.phase = .send)
    (ht : sendTurn s = .moves t) : ByteInv t := by
  obtain ⟨c, u, hu, hcase⟩ := sendTurn_moves ht
  obtain ⟨_, _, -, -, rfl⟩ := tWrite_some hu
  have reads := (h.wholeReads hp nofun nofun).append (wholeReads_wrote (sendFrame s.params s.cmd) c)
  rcases hcase with ⟨-, rfl⟩ | ⟨-, rfl⟩
  · exact reads.byteInv_fail control rfl nofun nofun
  · exact WholeReads.byteInv reads control nofun nofun nofun nofun

theorem waitTurn_byteInv {s t : State} (h : ByteInv s) (control : ControlInv t) (hp : s.phase = .wait)
    (ht : waitTurn s = .moves t) : ByteInv t := by
  obtain ⟨u, a, v, hu, hv, hcase⟩ := waitTurn_moves ht
  obtain ⟨link, yld, rfl⟩ := poll_appends hu hv
  have reads := (h.wholeReads hp nofun nofun).append (wholeReads_polled a)
  rcases hcase with ⟨-, rfl⟩ | ⟨-, rfl⟩
  · exact WholeReads.byteInv reads control nofun nofun nofun nofun
  · rcases emptyWaitPoll_cases { s with link := link, yld := yld, trace := s.trace ++ [.polled a] } with
      ⟨-, he⟩ | ⟨-, he⟩ <;> rw [he] at control ⊢
    · exact reads.byteInv_fail control rfl nofun nofun
    · exact WholeReads.byteInv (reads.append (wholeReads_yielded _)) control nofun nofun nofun nofun

/-- Dispatch reads nothing: `DEC_NONE` ends with the header alone (43_decoders.md R195). -/
theorem enterDecoder_byteInv {s : State} (reads : WholeReads s.trace rspHdrLen)
    (control : ControlInv (enterDecoder s)) : ByteInv (enterDecoder s) := by
  unfold enterDecoder at control ⊢
  rcases dispatch_cases { s with data.budgetLeft := s.hdr.len } with
    ⟨hd, he⟩ | ⟨-, -, he⟩ | ⟨-, he⟩ <;> rw [he] at control ⊢
  · have hd : s.cmd.dec = .none := hd
    refine WholeReads.byteInv_ok_shape ?_ control (by simp [hd])
    simpa [hd, shapeLen] using reads
  · exact WholeReads.byteInv reads control nofun nofun nofun nofun
  · exact WholeReads.byteInv reads control nofun nofun nofun nofun

theorem takeHeader_byteInv {s : State} (reads : WholeReads s.trace rspHdrLen) {h : ResponseHeader}
    (control : ControlInv (takeHeader h s)) : ByteInv (takeHeader h s) := by
  have registered : WholeReads { s with hdr := ⟨h.syncByte, h.status, h.payloadLength⟩ }.trace rspHdrLen := reads
  rcases takeHeader_cases h s with ⟨-, he⟩ | ⟨-, -, he⟩ | ⟨-, -, he⟩ <;> rw [he] at control ⊢
  · exact registered.byteInv_fail control rfl nofun nofun
  · exact registered.byteInv_fail control rfl nofun nofun
  · exact enterDecoder_byteInv registered control

theorem headerTurn_byteInv {s t : State} (h : ByteInv s) (control : ControlInv t) (hp : s.phase = .header)
    (ht : headerTurn s = .moves t) : ByteInv t := by
  obtain ⟨bs, u, hu, hcase⟩ := headerTurn_moves ht
  have reads : WholeReads s.trace 0 := h.wholeReads hp nofun nofun
  have most : bs.length ≤ 6 := tRead_length_le hu
  obtain ⟨link, rfl⟩ := tRead_appends hu
  rcases hcase with ⟨hl, rfl⟩ | ⟨hd, -, hl, rfl⟩
  · have count : (readIn (s.trace ++ [.read rspHdrLen bs])).length = bs.length := by
      simp [readIn_append, readIn, List.eq_nil_of_length_eq_zero reads.length]
    exact byteInv_of_finish control rfl ⟨Nat.zero_le _, count.trans_le (by omega)⟩ nofun nofun
  · have header : WholeReads (s.trace ++ [.read rspHdrLen bs]) rspHdrLen := reads.append (wholeReads_read hl)
    exact takeHeader_byteInv header control

/-! ### The decoders -/

theorem fixedTurn_byteInv {s t : State} (h : ByteInv s) (control : ControlInv t) (hp : s.phase = .fixed)
    (ht : fixedTurn s = .moves t) : ByteInv t := by
  obtain ⟨bs, u, hu, hcase⟩ := fixedTurn_moves ht
  obtain ⟨-, hd⟩ := h.control.fixedShape hp
  have reads : WholeReads s.trace rspHdrLen := h.wholeReads hp nofun nofun
  rcases hcase with ⟨short, rfl⟩ | ⟨hl, rfl⟩
  · exact reads.byteInv_shortRead hu short control (consumedAtEnd_shortRead_shape hd) le_rfl (by omega)
  · obtain ⟨link, rfl⟩ := tRead_appends hu
    exact WholeReads.byteInv_ok_shape (reads.append (wholeReads_read hl)) control hd

/-- No block is read yet (44_execute_image.md R216). -/
theorem exSubTurn_byteInv {s t : State} (h : ByteInv s) (control : ControlInv t) (hp : s.phase = .exSub)
    (ht : exSubTurn s = .moves t) : ByteInv t := by
  obtain ⟨bs, u, hu, hcase⟩ := exSubTurn_moves ht
  have hd : s.cmd.dec = .exec := h.control.execShape (hp ▸ rfl)
  have reads : WholeReads s.trace rspHdrLen := h.wholeReads hp nofun nofun
  rcases hcase with ⟨short, rfl⟩ | ⟨body, hand, face, r, rfl, rfl⟩
  · exact reads.byteInv_shortRead_exec hu short control hd le_rfl (by omega)
  · obtain ⟨link, rfl⟩ := tRead_appends hu
    rw [consume_eq] at control ⊢
    refine WholeReads.byteInv ?_ control nofun nofun (fun _ => le_rfl) nofun
    have four := reads.append (wholeReads_read (n := execSubhdrLen) (bs := [body, hand, face, r]) rfl)
    simpa [consumedInPhase] using four

/-- With no block left, or blocks of no bytes, all of their kind are read. -/
theorem blocks_done {count items : Byte} {size : Nat} (h : items = 0 ∨ size = 0) :
    (count.toNat - items.toNat) * size = count.toNat * size := by
  rcases h with rfl | rfl <;> simp

theorem items_pred {items : Byte} (hi : items ≠ 0) : (items - 1).toNat + 1 = items.toNat := by bv_omega

/-- One more block of its kind is read. -/
theorem blocks_next {count items : Byte} (hi : items ≠ 0) (hle : items.toNat ≤ count.toNat) (size : Nat) :
    (count.toNat - items.toNat) * size + size = (count.toNat - (items - 1).toNat) * size := by
  have pred := items_pred hi
  rw [← Nat.succ_mul]
  congr 1
  omega

theorem WholeReads.block {trace : List Event} {base size : Nat} {count items : Byte} {bs : List Byte}
    (h : WholeReads trace (base + (count.toNat - items.toNat) * size)) (hi : items ≠ 0)
    (hle : items.toNat ≤ count.toNat) (hl : bs.length = size) :
    WholeReads (trace ++ [.read size bs]) (base + (count.toNat - (items - 1).toNat) * size) := by
  rw [← blocks_next hi hle, ← Nat.add_assoc]
  exact h.append (wholeReads_read hl)

/-- A count is a byte. -/
theorem blocks_le (count : Byte) (left size : Nat) : (count.toNat - left) * size ≤ 255 * size :=
  Nat.mul_le_mul_right size (by omega)

theorem execPrefixLen_le (s : State) :
    execPrefixLen s ≤
      rspHdrLen + execSubhdrLen + 255 * s.params.bodyItemBytes + 255 * s.params.handItemBytes := by
  have bodies : s.data.bodyCount.toNat * _ ≤ 255 * _ := blocks_le s.data.bodyCount 0 s.params.bodyItemBytes
  have hands : s.data.handCount.toNat * _ ≤ 255 * _ := blocks_le s.data.handCount 0 s.params.handItemBytes
  unfold execPrefixLen
  omega

theorem exBodyTurn_byteInv {s t : State} (h : ByteInv s) (control : ControlInv t) (hp : s.phase = .exBody)
    (ht : exBodyTurn s = .moves t) : ByteInv t := by
  have hd : s.cmd.dec = .exec := h.control.execShape (hp ▸ rfl)
  have reads : WholeReads s.trace (rspHdrLen + execSubhdrLen +
    (s.data.bodyCount.toNat - s.items.toNat) * s.params.bodyItemBytes) := h.wholeReads hp nofun nofun
  rcases exBodyTurn_moves ht with ⟨hz, rfl⟩ | ⟨hi, -, bs, u, hu, hcase⟩
  · refine WholeReads.byteInv ?_ control nofun nofun nofun fun _ => le_rfl
    rw [blocks_done hz] at reads
    simpa [consumedInPhase] using reads
  · have left := h.bodies hp
    have pred := items_pred hi
    rcases hcase with ⟨short, rfl⟩ | ⟨hl, rfl⟩
    · have next := blocks_next hi left s.params.bodyItemBytes
      have most := blocks_le s.data.bodyCount (s.items - 1).toNat s.params.bodyItemBytes
      exact reads.byteInv_shortRead_exec hu short control hd (by omega) (by omega)
    · obtain ⟨link, rfl⟩ := tRead_appends hu
      rw [consume_eq] at control ⊢
      refine WholeReads.byteInv (reads.block hi left hl) control nofun nofun (fun _ => ?_) nofun
      exact (Nat.le_succ _).trans (pred.trans_le left)

theorem exHandTurn_byteInv {s t : State} (h : ByteInv s) (control : ControlInv t) (hp : s.phase = .exHand)
    (ht : exHandTurn s = .moves t) : ByteInv t := by
  have hd : s.cmd.dec = .exec := h.control.execShape (hp ▸ rfl)
  have reads : WholeReads s.trace (rspHdrLen + execSubhdrLen + s.data.bodyCount.toNat * s.params.bodyItemBytes +
    (s.data.handCount.toNat - s.items.toNat) * s.params.handItemBytes) := h.wholeReads hp nofun nofun
  have all : s.items = 0 ∨ s.params.handItemBytes = 0 → WholeReads s.trace (execPrefixLen s) := fun hz => by
    rwa [blocks_done hz] at reads
  rcases exHandTurn_moves ht with ⟨hz, -, rfl⟩ | ⟨hz, himg, rfl⟩ | ⟨hi, -, bs, u, hu, hcase⟩
  · exact WholeReads.byteInv (all hz) control nofun nofun nofun nofun
  · have absent : s.res.imgPresent = false :=
      Bool.eq_false_iff.mpr fun hpres => absurd (himg.symm.trans (h.control.imagePresent hpres).2) nofun
    exact (all hz).byteInv_ok_exec control hd absent
  · have left := h.hands hp
    have pred := items_pred hi
    rcases hcase with ⟨short, rfl⟩ | ⟨hl, rfl⟩
    · have bodies : s.data.bodyCount.toNat * _ ≤ 255 * _ := blocks_le s.data.bodyCount 0 s.params.bodyItemBytes
      have next := blocks_next hi left s.params.handItemBytes
      have most := blocks_le s.data.handCount (s.items - 1).toNat s.params.handItemBytes
      exact reads.byteInv_shortRead_exec hu short control hd (by omega) (by omega)
    · obtain ⟨link, rfl⟩ := tRead_appends hu
      rw [consume_eq] at control ⊢
      refine WholeReads.byteInv (reads.block hi left hl) control nofun nofun nofun fun _ => ?_
      exact (Nat.le_succ _).trans (pred.trans_le left)

/-! ### The image -/

/-- With the dimensions in, all of the image is missing (44_execute_image.md R222). -/
theorem dimensionsTaken_imageAccount {s : State} (reads : WholeReads s.trace (execPrefixLen s + imgDimLen))
    (w h : Word16) : ImageAccount (dimensionsTaken w h s) := by
  have account := reads.streamed (w.toNat * h.toNat)
  rw [dimensionsTaken_eq, consume_eq]
  unfold ImageAccount
  change Streamed s.trace (execPrefixLen s + imgDimLen) (mul16 w h).toNat (w.toNat * h.toNat)
  rwa [mul16_toNat]

theorem imgDimTurn_byteInv {s t : State} (h : ByteInv s) (control : ControlInv t) (hp : s.phase = .imgDim)
    (ht : imgDimTurn s = .moves t) : ByteInv t := by
  obtain ⟨bs, u, hu, hcase⟩ := imgDimTurn_moves ht
  have hd : s.cmd.dec = .exec := h.control.execShape (hp ▸ rfl)
  have reads : WholeReads s.trace (execPrefixLen s) := h.wholeReads hp nofun nofun
  rcases hcase with ⟨short, rfl⟩ | ⟨w0, w1, h0, h1, rfl, rfl⟩
  · have header : rspHdrLen ≤ execPrefixLen s := by
      unfold execPrefixLen
      omega
    exact reads.byteInv_shortRead_exec hu short control hd header (Nat.add_le_add_right (execPrefixLen_le s) _)
  · obtain ⟨link, rfl⟩ := tRead_appends hu
    have four := reads.append (wholeReads_read (n := imgDimLen) (bs := [w0, w1, h0, h1]) rfl)
    have account := dimensionsTaken_imageAccount
      (s := { s with link := link, trace := s.trace ++ [.read imgDimLen [w0, w1, h0, h1]] }) four
      (b2i w0 w1) (b2i h0 h1)
    rw [takeDimensions_eq] at control ⊢
    split at control
    · next hz =>
      rw [if_pos hz]
      exact account.byteInv_ok control rfl
    · next hz =>
      rw [if_neg hz]
      exact ImageAccount.byteInv account control rfl

/-- An empty poll of the drain yields, or leaves the image incomplete (44_execute_image.md R224, R225). -/
theorem emptyDrainPoll_byteInv {s : State} (account : ImageAccount s) (present : s.res.imgPresent = true)
    (control : ControlInv (emptyDrainPoll s)) : ByteInv (emptyDrainPoll s) := by
  rcases emptyDrainPoll_cases s with ⟨-, he⟩ | ⟨-, he⟩ <;> rw [he] at control ⊢
  · exact ImageAccount.byteInv_ok account control present
  · have yielded := account.append (more := [.yielded s.shadow.pollIntervalMs]) rfl (Nat.zero_le _)
    exact ImageAccount.byteInv yielded control rfl

/-- `k` bytes more at the sink are `k` fewer missing. -/
theorem chunkTaken_imageAccount {s : State} {k : Nat} (hk : k ≤ s.data.imgRem.toNat)
    (sunk : Streamed s.trace (execPrefixLen s + imgDimLen) (s.data.imgRem.toNat - k)
      (s.data.imgW.toNat * s.data.imgH.toNat)) : ImageAccount (chunkTaken k s) := by
  rw [chunkTaken_eq, consume_eq]
  unfold ImageAccount
  rwa [← sub_ofNat_toNat hk] at sunk

theorem takeChunk_byteInv {s : State} {k : Nat} (account : ImageAccount (chunkTaken k s))
    (present : s.res.imgPresent = true) (control : ControlInv (takeChunk k s)) : ByteInv (takeChunk k s) := by
  rcases takeChunk_cases k s with ⟨-, he⟩ | ⟨-, he⟩ <;> rw [he] at control ⊢
  · exact account.byteInv_ok control (by simpa [chunkTaken] using present)
  · exact ImageAccount.byteInv account control rfl

theorem imgStreamTurn_byteInv {s t : State} (h : ByteInv s) (control : ControlInv t) (hp : s.phase = .imgStream)
    (ht : imgStreamTurn s = .moves t) : ByteInv t := by
  obtain ⟨-, -, present⟩ := h.control.streaming hp
  have account := h.imageAccount hp
  obtain ⟨u, a, v, hu, hv, hcase⟩ := imgStreamTurn_moves ht
  obtain ⟨link, yld, rfl⟩ := poll_appends hu hv
  have polled := account.append (more := [.polled a]) rfl (Nat.zero_le _)
  rcases hcase with ⟨-, rfl⟩ | ⟨-, bs, w, hw, hcase⟩
  · exact emptyDrainPoll_byteInv polled present control
  · have fits : bs.length ≤ s.data.imgRem.toNat := chunk_length_le hw
    obtain ⟨link, rfl⟩ := tRead_appends hw
    rcases hcase with ⟨rfl, rfl⟩ | ⟨-, x, hx, rfl⟩
    · have nothing := polled.append (more := [.read (chunkSize s.params s.data.imgRem a) []]) rfl (Nat.zero_le _)
      exact emptyDrainPoll_byteInv nothing present control
    · obtain ⟨-, rfl⟩ := sinkWrite_some hx
      have count : readIn ([.read (chunkSize s.params s.data.imgRem a) bs] ++ [.sank bs]) = bs := by simp [readIn]
      have sunk := polled.append (more := [.read (chunkSize s.params s.data.imgRem a) bs] ++ [.sank bs]) rfl
        (by rw [count]; exact fits)
      rw [count, ← List.append_assoc] at sunk
      exact takeChunk_byteInv (chunkTaken_imageAccount fits sunk) present control

/-! ### Any step, the statement -/

theorem unitTurn_byteInv {s t : State} (h : ByteInv s) (ht : unitTurn s = .moves t) : ByteInv t := by
  have control := unitTurn_controlInv h.control ht
  rw [unitTurn_eq_turnOf] at ht
  cases hp : s.phase <;> rw [hp] at ht
  case idle => exact idleTurn_byteInv control ht
  case send => exact sendTurn_byteInv h control hp ht
  case wait => exact waitTurn_byteInv h control hp ht
  case header => exact headerTurn_byteInv h control hp ht
  case fixed => exact fixedTurn_byteInv h control hp ht
  case exSub => exact exSubTurn_byteInv h control hp ht
  case exBody => exact exBodyTurn_byteInv h control hp ht
  case exHand => exact exHandTurn_byteInv h control hp ht
  case imgDim => exact imgDimTurn_byteInv h control hp ht
  case imgStream => exact imgStreamTurn_byteInv h control hp ht

/-- No move of the environment reads or sinks a byte; `rst` empties the trace and posts no result. -/
theorem byteInv_kept : Kept ByteInv where
  tail _ _ _ h ha := h.frame fun m hm => h.control.external m (ha ▸ List.mem_cons_of_mem _ hm)
  turn _ _ h ht := unitTurn_byteInv h ht
  offer _ _ h := h.frame h.control.external
  answers _ _ h := h.frame h.control.external
  acks _ _ h := h.frame h.control.external
  sink _ _ h := h.frame h.control.external
  deliver _ _ h := h.frame h.control.external
  flush s h := by
    rw [flushInbound_eq]
    exact h.frame h.control.external
  select _ _ h := h.frame h.control.external
  maxWaitPolls _ _ h := h.frame h.control.external
  pollIntervalMs _ _ h := h.frame h.control.external
  imgRetryCeil _ _ h := h.frame h.control.external
  reset s h := (resetWith_byteInv s.params).frame h.control.external

/-- Settles O50: every turn of the unit and every move of the environment keeps the account, and the agents' agenda has
no other step. -/
theorem byteInvKept : Obligations.ByteInvKept := fun _ _ h ht => step_keeps byteInv_kept h h.control.external ht

end Sys2Proof.Machine
end

section
/-!
PROOFS. Reset and hazards (70_reset_and_hazards.md): what `rst` leaves of the machine (R281, R282), and the accept step
of a command whose configuration may be unwritten (R283).
-/

namespace Sys2Proof.Machine

/-! ### `rst` -/

/-- Settles O11: a move that brings no word is the whole step, and `resetUnit` writes each register the statement
names. -/
theorem resetMoveKeepsTransport : Obligations.ResetMoveKeepsTransport := fun _ _ ha =>
  ⟨_, step_environmentMove ha nofun nofun, rfl, rfl, rfl, rfl, rfl, rfl, rfl, rfl, rfl, rfl, rfl, rfl⟩

/-! ### What the accept step asks of the configuration -/

/-- An execution is code 6 (30_encoding.md R105). -/
theorem decoderOfCode_eq_exec : ∀ c : BitVec 3, decoderOfCode c = some .exec ↔ c = 6 := by decide

/-- The configuration is not ready where one of the registers the command needs was never written. -/
theorem configReady_eq_false {d : Decoder} {imgreq : Bool} {c : ConfigRegs} :
    configReady d imgreq c = false ↔ c.maxWaitPollsWritten = false ∨ c.pollIntervalMsWritten = false ∨
      c.imgRetryCeilWritten = false ∧ d = .exec ∧ imgreq = true := by
  simp only [configReady, Bool.and_eq_false_iff, Bool.or_eq_false_iff, Bool.not_eq_false', Bool.and_eq_true, beq_iff_eq,
    or_assoc]

/-- The accept step on a legal command, its configuration not ready (70_reset_and_hazards.md R283). -/
theorem idleTurn_notReady {s : State} {c : Command} {rest : List Command} {d : Decoder} (ho : s.offers = c :: rest)
    (hd : decoderOfCode c.dec = some d) (hc : configReady d c.imgreq s.cfg = false) :
    idleTurn s = .refuses .configUnwritten := by
  simp [idleTurn, ho, hd, hc]

/-- The accept step refuses a legal command for its configuration exactly where that is not ready: with it ready the
unit moves. -/
theorem execStepIdle_configUnwritten {s : State} {c : Command} {rest : List Command} {d : Decoder}
    (ho : s.offers = c :: rest) (hd : decoderOfCode c.dec = some d) :
    exec .stepIdle s = .refused .configUnwritten ↔ configReady d c.imgreq s.cfg = false := by
  change (idleTurn s).outcome s = _ ↔ _
  cases hc : configReady d c.imgreq s.cfg with
  | false => simp [idleTurn_notReady ho hd hc, Turn.outcome]
  | true => simp [idleTurn_accepts ho hd hc, Turn.outcome]

/-! ### The length test -/

theorem admitLength_phase (s : State) : (admitLength s).phase = if s.cmd.len.toNat ≤ 28 then .send else .idle := by
  unfold admitLength
  split
  case isTrue long => exact (if_neg (Nat.not_le.mpr long)).symm
  case isFalse fits => exact (if_pos (Nat.not_lt.mp fits)).symm

/-- The length test writes neither the configuration nor the shadows. -/
theorem admitLength_config (s : State) : (admitLength s).cfg = s.cfg ∧ (admitLength s).shadow = s.shadow := by
  unfold admitLength
  split <;> exact ⟨rfl, rfl⟩

/-! ### The statement -/

/-- Settles O16: the refusal is the configuration's not being ready for the command's decoder, and otherwise the
shadows are latched from registers the host has written. -/
theorem acceptNeedsConfiguration : Obligations.AcceptNeedsConfiguration := by
  intro s c rest _ ho legal
  obtain ⟨d, hd⟩ := Option.isSome_iff_exists.mp (decoderOfCode_legal c.dec legal)
  have execution : d = .exec ↔ c.dec = 6 := by rw [← decoderOfCode_eq_exec, hd, Option.some_inj]
  have unready : configReady d c.imgreq s.cfg = false ↔ s.cfg.maxWaitPollsWritten = false ∨
      s.cfg.pollIntervalMsWritten = false ∨ s.cfg.imgRetryCeilWritten = false ∧ c.dec = 6 ∧ c.imgreq = true := by
    rw [configReady_eq_false, execution]
  refine ⟨(execStepIdle_configUnwritten ho hd).trans unready, fun polls interval ceiling => ?_⟩
  have ready : configReady d c.imgreq s.cfg = true := by
    rw [← Bool.not_eq_false, unready]
    rintro (h | h | ⟨unwritten, execute, image⟩)
    · simp [polls] at h
    · simp [interval] at h
    · simp [unwritten, execute, image] at ceiling
  obtain ⟨cfg, shadow⟩ := admitLength_config (latchCommand d c { s with offers := rest })
  refine ⟨_, congrArg (Turn.outcome · s) (idleTurn_accepts ho hd ready), admitLength_phase _, cfg, ?_⟩
  rw [shadow]
  exact ⟨heldConfig_maxWaitPolls polls, heldConfig_pollIntervalMs interval, heldConfig_imgRetryCeil⟩

end Sys2Proof.Machine
end
